-- ==== Sys2Proof/Word.lean ====
section
/-!
DEFINITION. The widths of the machine (spec R11, D1, D2): 32-bit words, 8-bit bytes, 5-bit register numbers and the
64-bit canonical record word (R73). `XLEN` and `NREG` are fixed at the spec's 32 (assumption log 7).
-/

namespace Sys2Proof

/-- A register value, data address or pc: `XLEN` = 32 bits (R11, D1). -/
abbrev Word := BitVec 32

/-- One byte of data memory (R51). -/
abbrev Byte := BitVec 8

/-- The number of an architectural register, 0..31 (R25, R73). -/
abbrev Reg := BitVec 5

/-- The canonical 64-bit record word (R73). -/
abbrev RecordWord := BitVec 64

end Sys2Proof
end

