-- ==== Sys2Proof/Config.lean ====
section
/-!
DEFINITION. The parameters of the core (spec R9, R10, R11) and the reference configuration (R12).
A configuration is plain data, fixed for a run and held in State (assumption log 2).
-/

namespace Sys2Proof

/-- The functional-unit classes K of R22, R77. -/
inductive FuClass where
  | alu | fpu | lsu
deriving DecidableEq, Repr

/-- One thing of a kind for each functional-unit class. -/
structure PerClass (α : Type) where
  alu : α
  fpu : α
  lsu : α
deriving DecidableEq, Repr

/-- The member of class `k`. -/
def PerClass.get {α : Type} (p : PerClass α) : FuClass → α
  | .alu => p.alu
  | .fpu => p.fpu
  | .lsu => p.lsu

/-- Replace the member of class `k`. -/
def PerClass.set {α : Type} (p : PerClass α) (k : FuClass) (v : α) : PerClass α :=
  match k with
  | .alu => { p with alu := v }
  | .fpu => { p with fpu := v }
  | .lsu => { p with lsu := v }

/-- Apply `f` to every member. -/
def PerClass.map {α β : Type} (f : α → β) (p : PerClass α) : PerClass β :=
  ⟨f p.alu, f p.fpu, f p.lsu⟩

/-- The same thing for every class. -/
def PerClass.const {α : Type} (v : α) : PerClass α := ⟨v, v, v⟩

/-- `BP_TYPE` (R9, R107). -/
inductive PredictorType where
  | alwaysTaken | bimodal | gshare
deriving DecidableEq, Repr

/-- `BYTE_ORDER` (R11, R52). -/
inductive ByteOrder where
  | little | big
deriving DecidableEq, Repr

/-- The parameters of one cache (R9): size, block size, associativity, miss penalty. -/
structure CacheConfig where
  size : Nat
  block : Nat
  assoc : Nat
  miss : Nat
deriving DecidableEq, Repr

/-- `SETS = SIZE / (BLOCK * ASSOC)` (R48, R63). -/
def CacheConfig.sets (g : CacheConfig) : Nat := g.size / (g.block * g.assoc)

/-- The configuration surface: the tables of R9 and R10 and the parameters of R11 that are not the loaded
program's (those are in `Program`, Machine/Loader.lean). A field with a default may be left out of a configuration; it
then has the value the spec states for it. -/
structure Config where
  /-- `W_f` -/
  fetchWidth : Nat
  /-- `W_i`, also the decode width -/
  issueWidth : Nat
  /-- `W_c`; default `W_i` (R9, D47) -/
  commitWidth : Nat := issueWidth
  /-- `W_cdb`; default `W_i` (R10, D23) -/
  cdbWidth : Nat := issueWidth
  /-- `ROB_CAP` -/
  robCap : Nat
  /-- `RS_CAP[K]` -/
  rsCap : PerClass Nat
  /-- `LSQ_CAP` -/
  lsqCap : Nat
  /-- `FU_COUNT[K]` -/
  fuCount : PerClass Nat
  /-- `FU_LAT[K]` -/
  fuLat : PerClass Nat
  /-- `BP_TYPE` -/
  bpType : PredictorType
  /-- `BP_N` -/
  bpEntries : Nat
  /-- `BP_H` -/
  bpHistory : Nat
  /-- `BTB_N` -/
  btbEntries : Nat
  /-- `IC_*` -/
  icache : CacheConfig
  /-- `DC_*` -/
  dcache : CacheConfig
  /-- `MEM_SIZE` -/
  memSize : Nat
  /-- `MAX_CYCLES` -/
  maxCycles : Nat
  /-- `FB_CAP`; default `W_f` (R11, D18) -/
  fbCap : Nat := fetchWidth
  /-- `BYTE_ORDER`; default little (R11, D4) -/
  byteOrder : ByteOrder := .little
  /-- `OVERFLOW_TRAPS`; default true (R11, D11) -/
  overflowTraps : Bool := true
  /-- `TEXT_BASE` -/
  textBase : Word
deriving DecidableEq, Repr

/-- The reference configuration of R12. `W_c`, `W_cdb`, `FB_CAP`, `BYTE_ORDER` and `OVERFLOW_TRAPS` have their stated
defaults there, and are left out. -/
def Config.reference : Config where
  fetchWidth := 4
  issueWidth := 4
  robCap := 16
  rsCap := ⟨8, 8, 8⟩
  lsqCap := 8
  fuCount := ⟨2, 1, 1⟩
  fuLat := ⟨1, 4, 1⟩
  bpType := .bimodal
  bpEntries := 16
  bpHistory := 4
  btbEntries := 8
  icache := ⟨1024, 16, 2, 10⟩
  dcache := ⟨1024, 16, 2, 10⟩
  memSize := 4096
  maxCycles := 10000
  textBase := 0x00400000#32

end Sys2Proof
end

