-- ==== Sys2Proof/Syntax.lean ====
section
/-!
DEFINITION. The instructions: one constructor of `Instr` per row of spec/opcode_table.json, the opcodes (R76), and the
record form the pipeline carries (R71).
-/

namespace Sys2Proof

/-- The opcode of a record is its mnemonic (R71, R76). -/
inductive Opcode where
  | add | addi | sub | mul | and | or | xor | sll | srl | slt | li | la
  | lw | sw
  | beq | bne | bgt | bge | ble | blt | j | jal | jr
  | nop | syscall | halt
deriving DecidableEq, Repr

/-- An instruction with the operands its format has (R74, R76). -/
inductive Instr where
  | add (rd rs1 rs2 : Reg)
  | addi (rd rs1 : Reg) (imm : Word)
  | sub (rd rs1 rs2 : Reg)
  | mul (rd rs1 rs2 : Reg)
  | and (rd rs1 rs2 : Reg)
  | or (rd rs1 rs2 : Reg)
  | xor (rd rs1 rs2 : Reg)
  | sll (rd rs1 : Reg) (imm : Word)
  | srl (rd rs1 : Reg) (imm : Word)
  | slt (rd rs1 rs2 : Reg)
  | li (rd : Reg) (imm : Word)
  | la (rd : Reg) (imm : Word)
  | lw (rd rs1 : Reg) (imm : Word)
  | sw (rs1 rs2 : Reg) (imm : Word)
  | beq (rs1 rs2 : Reg) (imm : Word)
  | bne (rs1 rs2 : Reg) (imm : Word)
  | bgt (rs1 rs2 : Reg) (imm : Word)
  | bge (rs1 rs2 : Reg) (imm : Word)
  | ble (rs1 rs2 : Reg) (imm : Word)
  | blt (rs1 rs2 : Reg) (imm : Word)
  | j (imm : Word)
  | jal (imm : Word)
  | jr (rs1 : Reg)
  | nop
  | syscall
  | halt
deriving DecidableEq, Repr

/-- The static fields of an instruction record (R71): a field the format does not use is 0 (R74). -/
structure InstrRecord where
  op : Opcode
  rd : Reg
  rs1 : Reg
  rs2 : Reg
  imm : Word
deriving DecidableEq, Repr

end Sys2Proof
end

