-- ==== Sys2Proof/Machine/State.lean ====
section
/-!
DEFINITION. The engine record of spec/10_state.md: architectural state, rename map, reorder buffer, reservation
stations, functional units, CDB queue, load/store queue, memory port, stage latches, counters, fetch, predictor and
caches; the outcomes, faults and refusals; the state after reset (R202).
-/

namespace Sys2Proof.Machine

/-- The causes of R183. -/
inductive Cause where
  | fetchFault
  | misalignedAccess
  | memoryFault
  | arithmeticOverflow
  | unsupportedSyscall
deriving DecidableEq, Repr

/-- The outcome of a run (R44). -/
inductive RunOutcome where
  | running
  | halted
  | faulted (cause : Cause) (pc : Word) (seq : Nat) (addr : Word)
  | limit
deriving DecidableEq, Repr

/-- Why a step stops. -/
inductive Fault where
  /-- Raised by `step` alone, in a state whose outcome is not `running`: the run has ended and nothing runs after it
  (R198, R204). Safe: the hardware takes no step there either (assumption log 6). -/
  | runEnded
deriving DecidableEq, Repr

/-- Why the machine gives no meaning. -/
inductive Refusal where
  /-- Answered only by an arm of `exec` whose instruction has no meaning yet; no arm does. Safe. -/
  | notModelled (mnemonic : String)
  /-- `refused(ConfigInvalid)` (R199): raised by `State.load` and by `step` for a configuration that is not valid, with
  which no run starts. Safe (assumption log 5). -/
  | configInvalid
  /-- `refused(ProgramInvalid)` (R200, R80): raised by `State.load` for a program the loader refuses, and by `step` for an
  instruction array that holds an illegal word or does not fit the address space. Safe (assumption log 5); that an array
  which does not fit is refused is a DESIGN CHOICE (assumption log 31). -/
  | programInvalid
deriving DecidableEq, Repr

/-- Which of the spec's two step relations `step` takes: the cycle of R85 to R87, or the sequential semantics of R98.
The model's own field (assumption log 1). -/
inductive Driver where
  | pipeline
  | sequential
deriving DecidableEq, Repr

/-- An entry of the register file: "(value, ready-flag, producer-tag)" (R25). -/
structure RegEntry where
  value : Word
  ready : Bool
  tag : Nat
deriving DecidableEq, Repr

/-- A reorder-buffer entry (R33); `op = none` is a fetch fault record's. -/
structure RobEntry where
  valid : Bool
  seq : Nat
  pc : Word
  op : Option Opcode
  dest : Option Reg
  value : Word
  completed : Bool
  exception : Option Cause
  excAddr : Word
  isCtl : Bool
  predTaken : Bool
  actualTaken : Bool
  fetchedNextPc : Word
  actualNextPc : Word
  ghrSnap : Nat
  isStore : Bool
  stAddr : Word
  stValue : Word
  hasLsq : Bool
deriving DecidableEq, Repr

/-- An invalid entry; its other fields are never read (R33; assumption log 8). -/
def RobEntry.empty : RobEntry where
  valid := false
  seq := 0
  pc := 0
  op := none
  dest := none
  value := 0
  completed := false
  exception := none
  excAddr := 0
  isCtl := false
  predTaken := false
  actualTaken := false
  fetchedNextPc := 0
  actualNextPc := 0
  ghrSnap := 0
  isStore := false
  stAddr := 0
  stValue := 0
  hasLsq := false

/-- An operand slot `{ready, value, tag}` (R34). -/
structure Operand where
  ready : Bool
  value : Word
  tag : Nat
deriving DecidableEq, Repr

/-- A reservation-station entry (R34). -/
structure RsEntry where
  valid : Bool
  cls : FuClass
  rob : Nat
  seq : Nat
  op : Opcode
  imm : Word
  pc : Word
  fetchedNextPc : Word
  a : Operand
  b : Operand
  issuedCycle : Nat
deriving DecidableEq, Repr

/-- A free reservation-station entry of class `k` (assumption log 8). -/
def RsEntry.empty (k : FuClass) : RsEntry where
  valid := false
  cls := k
  rob := 0
  seq := 0
  op := .nop
  imm := 0
  pc := 0
  fetchedNextPc := 0
  a := ⟨false, 0, 0⟩
  b := ⟨false, 0, 0⟩
  issuedCycle := 0

/-- A functional unit: busy flag, remaining ticks and the bound instruction (R35, R115). -/
structure FuUnit where
  busy : Bool
  remaining : Nat
  op : Opcode
  a : Word
  b : Word
  imm : Word
  pc : Word
  fetchedNextPc : Word
  rob : Nat
  seq : Nat
deriving DecidableEq, Repr

/-- A free unit (assumption log 8). -/
def FuUnit.idle : FuUnit where
  busy := false
  remaining := 0
  op := .nop
  a := 0
  b := 0
  imm := 0
  pc := 0
  fetchedNextPc := 0
  rob := 0
  seq := 0

/-- A result waiting for the common data bus (R36); the LSQ entry is named by its ROB index (assumption log 11). -/
structure CdbResult where
  seq : Nat
  rob : Nat
  value : Word
  exception : Option Cause
  excAddr : Word
  actualTaken : Bool
  actualNextPc : Word
  lsq : Option Nat
deriving DecidableEq, Repr

/-- `kind` of an LSQ entry (R37). -/
inductive LsqKind where
  | load | store
deriving DecidableEq, Repr

/-- `lstate` of a load (R37). -/
inductive LoadState where
  | waitAddr | ready | accessing | done
deriving DecidableEq, Repr

/-- A load/store-queue entry (R37). -/
structure LsqEntry where
  seq : Nat
  rob : Nat
  kind : LsqKind
  addrOk : Bool
  addr : Word
  fault : Option Cause
  data : Word
  lstate : LoadState
deriving DecidableEq, Repr

/-- The memory port (R38); the LSQ entry of its load is held as that entry's `seq` and `rob`. -/
structure MemPort where
  busy : Bool
  remaining : Nat
  seq : Nat
  rob : Nat
  value : Word
deriving DecidableEq, Repr

/-- A fetched record (R39, R41, R102); `body = none` is a fetch fault record (R103). -/
structure FetchRec where
  body : Option InstrRecord
  pc : Word
  predTaken : Bool
  predTarget : Word
  fetchedNextPc : Word
  ghrSnap : Nat
deriving DecidableEq, Repr

/-- A decode-time dependency snapshot (R92). -/
inductive Snapshot where
  | const0
  | arch (i : Reg)
  | tag (t : Nat) (s : Nat) (i : Reg)
deriving DecidableEq, Repr

/-- A decoded record in the decode latch (R40, R41). -/
structure DecRec where
  fetched : FetchRec
  seq : Nat
  rob : Nat
  src1 : Snapshot
  src2 : Snapshot
deriving DecidableEq, Repr

/-- The metric counters (R45). -/
structure Metrics where
  instructionsCommitted : Nat
  branchPredictions : Nat
  branchMispredictions : Nat
  icacheAccesses : Nat
  icacheHits : Nat
  dcacheAccesses : Nat
  dcacheHits : Nat
  stallRobFull : Nat
  stallRsFull : Nat
  stallLsqFull : Nat
  stallIcacheMiss : Nat
  stallDcacheMiss : Nat
  stallRawHazard : Nat
  fuBusy : PerClass (List Nat)
deriving DecidableEq, Repr

/-- `fetch_stall_cause` (R46). -/
inductive StallCause where
  | icacheMiss | target
deriving DecidableEq, Repr

/-- Fetch state (R46). -/
structure FetchState where
  pc : Word
  stall : Nat
  stallCause : StallCause
  blocked : Bool
deriving DecidableEq, Repr

/-- A BTB entry (R47). -/
structure BtbEntry where
  valid : Bool
  pc : Word
  target : Word
  lru : Nat
deriving DecidableEq, Repr

/-- Predictor state (R47); `ghr` is the unsigned value of the `BP_H`-bit register (assumption log 13). -/
structure Predictor where
  pht : List (BitVec 2)
  ghr : Nat
  btb : List BtbEntry
  btbStamp : Nat
deriving DecidableEq, Repr

/-- A cache line without its bytes (R48, R66). -/
structure CacheLine where
  valid : Bool
  tag : Nat
  dirty : Bool
  lru : Nat
deriving DecidableEq, Repr

/-- A cache: its sets of lines and its access stamp counter (R48). -/
structure Cache where
  sets : List (List CacheLine)
  stamp : Nat
deriving DecidableEq, Repr

/-- The engine record (spec/10_state.md), with the configuration it was built from. -/
structure State where
  /-- the configuration, never written (R9) -/
  cfg : Config
  /-- the instruction array `IMEM`, as canonical record words, read-only (R29; assumption log 3) -/
  imem : List RecordWord
  /-- register values and rename map (R25, R30) -/
  rf : Vector RegEntry 32
  /-- `arch_pc` (R28) -/
  archPc : Word
  /-- `Mem` (R51): the bytes that are not 0, by rising address -/
  mem : List Host.Cell
  /-- the ROB ring (R32) -/
  rob : List RobEntry
  robHead : Nat
  robTail : Nat
  robCount : Nat
  /-- `RS[K]` (R34) -/
  rs : PerClass (List RsEntry)
  /-- `FU[K]` (R35) -/
  fu : PerClass (List FuUnit)
  /-- `CDBQ` (R36) -/
  cdbq : List CdbResult
  /-- the LSQ, oldest first (R37) -/
  lsq : List LsqEntry
  /-- `MPORT` (R38) -/
  mport : MemPort
  /-- `FB`, oldest first (R39) -/
  fb : List FetchRec
  /-- `DL`, oldest first (R40) -/
  dl : List DecRec
  /-- `seq_next` (R43) -/
  seqNext : Nat
  /-- `cycle` (R44) -/
  cycle : Nat
  /-- `outcome` (R44) -/
  outcome : RunOutcome
  /-- metric counters (R45) -/
  metrics : Metrics
  /-- fetch state (R46) -/
  fetch : FetchState
  /-- predictor state (R47) -/
  pred : Predictor
  /-- the I-cache (R48) -/
  icache : Cache
  /-- the D-cache (R48) -/
  dcache : Cache
  /-- which step relation `step` takes (the model's own; assumption log 1) -/
  driver : Driver
deriving DecidableEq, Repr

/-- The reset value of a cache (R48, R202). -/
def Cache.reset (g : CacheConfig) : Cache where
  sets := List.replicate g.sets (List.replicate g.assoc ⟨false, 0, false, 0⟩)
  stamp := 0

/-- The reset value of the metric counters (R45, R202). -/
def Metrics.reset (c : Config) : Metrics where
  instructionsCommitted := 0
  branchPredictions := 0
  branchMispredictions := 0
  icacheAccesses := 0
  icacheHits := 0
  dcacheAccesses := 0
  dcacheHits := 0
  stallRobFull := 0
  stallRsFull := 0
  stallLsqFull := 0
  stallIcacheMiss := 0
  stallDcacheMiss := 0
  stallRawHazard := 0
  fuBusy := c.fuCount.map (fun n => List.replicate n 0)

/-- Apply `f` to each of 32 things (written over lists, so that the kernel evaluates it). -/
def mapRegisters {α β : Type} (f : α → β) (v : Vector α 32) : Vector β 32 :=
  ⟨⟨v.toList.map f⟩, by simp⟩

/-- The reset state of R202, built from a configuration and the loader's output. -/
def State.resetWith (c : Config) (imem : List RecordWord) (mem : List Host.Cell) (entry : Word)
    (initRegs : Vector Word 32) : State where
  cfg := c
  imem := imem
  rf := mapRegisters (fun v => ⟨v, true, 0⟩) initRegs
  archPc := entry
  mem := mem
  rob := List.replicate c.robCap RobEntry.empty
  robHead := 0
  robTail := 0
  robCount := 0
  rs := ⟨List.replicate c.rsCap.alu (RsEntry.empty .alu), List.replicate c.rsCap.fpu (RsEntry.empty .fpu),
    List.replicate c.rsCap.lsu (RsEntry.empty .lsu)⟩
  fu := c.fuCount.map (fun n => List.replicate n FuUnit.idle)
  cdbq := []
  lsq := []
  mport := ⟨false, 0, 0, 0, 0⟩
  fb := []
  dl := []
  seqNext := 0
  cycle := 0
  outcome := .running
  metrics := Metrics.reset c
  fetch := ⟨entry, 0, .icacheMiss, false⟩
  pred := ⟨List.replicate c.bpEntries 1#2, 0, List.replicate c.btbEntries ⟨false, 0, 0, 0⟩, 0⟩
  icache := Cache.reset c.icache
  dcache := Cache.reset c.dcache
  driver := .pipeline

/-- The machine right after reset with nothing loaded: the reference configuration (R12; assumption log 2), no
records, an all-zero image, `INIT_REGS` all 0 and `ENTRY_PC = TEXT_BASE` (R202, D34, D35). -/
def State.reset : State :=
  State.resetWith Config.reference [] [] Config.reference.textBase (Vector.replicate 32 0#32)

end Sys2Proof.Machine
end

