-- ==== Sys2Proof/Machine/Operands.lean ====
section
/-!
DEFINITION. What each opcode reads, writes and executes on (R76, R77), operand assembly (R75), effective addresses and
their checks (R54, R55, R165), and the result form of R118.
-/

namespace Sys2Proof.Machine

/-- The source's opcode tags that an opcode can have (R71); no opcode is a `float-ALU` (R81). -/
inductive OpTag where
  | integerAlu | load | store | branch | jump | nop | halt
deriving DecidableEq, Repr

/-- The source's tag of an opcode (R71). -/
def opTag : Opcode → OpTag
  | .add | .addi | .sub | .mul | .and | .or | .xor | .sll | .srl | .slt | .li | .la => .integerAlu
  | .lw => .load
  | .sw => .store
  | .beq | .bne | .bgt | .bge | .ble | .blt => .branch
  | .j | .jal | .jr => .jump
  | .nop => .nop
  | .syscall | .halt => .halt

/-- The assembler's names of the registers, from 0 up (R27); five registers have none. -/
def registerNames : List (Option String) :=
  [some "$zero", none, some "$v0", some "$v1", some "$a0", some "$a1", some "$a2", some "$a3",
   some "$t0", some "$t1", some "$t2", some "$t3", some "$t4", some "$t5", some "$t6", some "$t7",
   some "$s0", some "$s1", some "$s2", some "$s3", some "$s4", some "$s5", some "$s6", some "$s7",
   some "$t8", some "$t9", none, none, none, some "$sp", none, some "$ra"]

/-- The name of a register, if it has one (R27). -/
def registerName (r : Reg) : Option String := registerNames.getD r.toNat none

/-- The execution class (R77): `none` for the records that need no unit. -/
def opClass : Opcode → Option FuClass
  | .lw | .sw => some .lsu
  | .nop | .syscall | .halt => none
  | .add | .addi | .sub | .mul | .and | .or | .xor | .sll | .srl | .slt | .li | .la
  | .beq | .bne | .bgt | .bge | .ble | .blt | .j | .jal | .jr => some .alu

/-- Does the instruction read `rs1` (the "reads" column of R76)? -/
def readsRs1 : Opcode → Bool
  | .add | .addi | .sub | .mul | .and | .or | .xor | .sll | .srl | .slt | .lw | .sw
  | .beq | .bne | .bgt | .bge | .ble | .blt | .jr => true
  | .li | .la | .j | .jal | .nop | .syscall | .halt => false

/-- Does the instruction read `rs2` (the "reads" column of R76)? -/
def readsRs2 : Opcode → Bool
  | .add | .sub | .mul | .and | .or | .xor | .slt | .sw
  | .beq | .bne | .bgt | .bge | .ble | .blt => true
  | .addi | .sll | .srl | .li | .la | .lw | .j | .jal | .jr | .nop | .syscall | .halt => false

/-- Does the instruction write `rd` (the "writes" column of R76)? -/
def writesRd : Opcode → Bool
  | .add | .addi | .sub | .mul | .and | .or | .xor | .sll | .srl | .slt | .li | .la | .lw | .jal => true
  | .sw | .beq | .bne | .bgt | .bge | .ble | .blt | .j | .jr | .nop | .syscall | .halt => false

/-- `COND`: the conditional branches (R104). -/
def isConditional : Opcode → Bool
  | .beq | .bne | .bgt | .bge | .ble | .blt => true
  | .add | .addi | .sub | .mul | .and | .or | .xor | .sll | .srl | .slt | .li | .la
  | .lw | .sw | .j | .jal | .jr | .nop | .syscall | .halt => false

/-- The unconditional control instructions (R107). -/
def isUnconditional : Opcode → Bool
  | .j | .jal | .jr => true
  | .add | .addi | .sub | .mul | .and | .or | .xor | .sll | .srl | .slt | .li | .la
  | .lw | .sw | .beq | .bne | .bgt | .bge | .ble | .blt | .nop | .syscall | .halt => false

/-- The control instructions, whose ROB entry has `is_ctl = 1` (R33). -/
def isControl (o : Opcode) : Bool := isConditional o || isUnconditional o

/-- The loads and stores, which own an LSQ entry (R126). -/
def isMemory : Opcode → Bool
  | .lw | .sw => true
  | .add | .addi | .sub | .mul | .and | .or | .xor | .sll | .srl | .slt | .li | .la
  | .beq | .bne | .bgt | .bge | .ble | .blt | .j | .jal | .jr | .nop | .syscall | .halt => false

/-- The records whose ROB entry decode completes (R91). -/
def completesAtDecode : Opcode → Bool
  | .nop | .syscall | .halt => true
  | .add | .addi | .sub | .mul | .and | .or | .xor | .sll | .srl | .slt | .li | .la
  | .lw | .sw | .beq | .bne | .bgt | .bge | .ble | .blt | .j | .jal | .jr => false

/-- The destination of a record: `rd` if the opcode writes it and it is not register 0, else none (R26, R91). -/
def destination (r : InstrRecord) : Option Reg :=
  if writesRd r.op && r.rd != 0 then some r.rd else none

/-- The next sequential pc, modulo 2^32 (R28, R72). -/
def nextSequential (pc : Word) : Word := pc + 4#32

/-- The shift amount `u(imm[4:0])` (R75, D10). -/
def shiftAmount (imm : Word) : Nat := (imm.extractLsb' 0 5).toNat

/-- `ea = trunc_32(u(base) + s(disp))` (R165). -/
def effectiveAddress (base disp : Word) : Word := BitVec.ofInt 32 (base.toNat + disp.toInt)

/-- The check of a word access at `ea`: alignment before bounds (R54, R55, R128, R165). -/
def addressFault (memSize : Nat) (ea : Word) : Option Cause :=
  if ea.extractLsb' 0 2 ≠ 0#2 then some .misalignedAccess
  else if memSize < ea.toNat + 4 then some .memoryFault
  else none

/-- What executing an instruction gives (R118): its value, its exception with the recorded address, whether a branch is
taken, and the next pc. -/
structure ExecResult where
  value : Word
  exception : Option Cause
  excAddr : Word
  taken : Bool
  nextPc : Word
deriving DecidableEq, Repr

/-- The result of a non-control instruction with value `v` and no exception (R118). DESIGN CHOICE (assumption log 29): its
`excAddr`, which R118 gives no value and no rule reads, is 0. -/
def valueResult (v pc : Word) : ExecResult := ⟨v, none, 0, false, nextSequential pc⟩

/-- A result that carries the exception `c`: no value is produced (R151, R184). DESIGN CHOICE (assumption log 29): its
`value` field, which the raising rules leave unassigned and no rule reads, is 0. -/
def raisedResult (c : Cause) (pc : Word) : ExecResult := ⟨0, some c, 0, false, nextSequential pc⟩

/-- The result of a control instruction (R168): a link value, whether it is taken, and where it goes. DESIGN CHOICE
(assumption log 29): its `excAddr`, which R118 gives no value and no rule reads, is 0. -/
def controlResult (link : Word) (taken : Bool) (next : Word) : ExecResult := ⟨link, none, 0, taken, next⟩

end Sys2Proof.Machine
end

