-- ==== Sys2Proof/Machine/Flags.lean ====
section
/-!
DEFINITION. The core has no condition flags (R24, D60). This file holds what takes their place: signed overflow (R152)
and the conditions branches and `slt` compute from registers (R162, R169 to R175).
-/

namespace Sys2Proof.Machine

/-- `ovf(p)`: the exact signed result does not fit 32 bits (R152). -/
def signedOverflow (p : Int) : Bool := decide (p < -2147483648) || decide (2147483647 < p)

/-- The result of an instruction whose exact signed result is `p`: it raises `ArithmeticOverflow` when overflow traps,
else it is `trunc_32(p)` (R152). -/
def checkedResult (traps : Bool) (p : Int) (pc : Word) : ExecResult :=
  if traps && signedOverflow p then raisedResult .arithmeticOverflow pc
  else valueResult (BitVec.ofInt 32 p) pc

/-- `a = b`, on all 32 bits (R170). -/
def condEq (a b : Word) : Bool := a == b
/-- `a ≠ b` (R171). -/
def condNe (a b : Word) : Bool := a != b
/-- `s(a) > s(b)` (R172). -/
def condGt (a b : Word) : Bool := decide (b.toInt < a.toInt)
/-- `s(a) >= s(b)` (R173). -/
def condGe (a b : Word) : Bool := decide (b.toInt ≤ a.toInt)
/-- `s(a) <= s(b)` (R174). -/
def condLe (a b : Word) : Bool := decide (a.toInt ≤ b.toInt)
/-- `s(a) < s(b)` (R162, R175). -/
def condLt (a b : Word) : Bool := decide (a.toInt < b.toInt)

/-- The conditional-branch template: taken to `imm`, else `pc + 4` (R169). -/
def branchResult (taken : Bool) (imm pc : Word) : ExecResult :=
  controlResult 0 taken (if taken then imm else nextSequential pc)

end Sys2Proof.Machine
end

