-- ==== Sys2Proof/Machine/Ops.lean ====
section
/-!
DEFINITION. The named operations on registers and memory, the taking of an exception, and the sequential retirement of an
instruction (R98). There is no return from an exception: the spec has none (R188, R189).
-/

namespace Sys2Proof.Machine

/-! ### Memory -/

/-- The byte at address `a`; an unlisted byte is 0, as the loader's image is where it gives nothing (R51, R202). -/
def memGet : List Host.Cell → Nat → Byte
  | [], _ => 0#8
  | (k, b) :: m, a => if a = k then b else memGet m a

/-- Write one byte, keeping the canonical form: addresses rise strictly and no listed byte is 0. -/
def memSet : List Host.Cell → Nat → Byte → List Host.Cell
  | [], a, v => if v = 0#8 then [] else [(a, v)]
  | (k, b) :: m, a, v =>
    if a < k then (if v = 0#8 then (k, b) :: m else (a, v) :: (k, b) :: m)
    else if a = k then (if v = 0#8 then m else (a, v) :: m)
    else (k, b) :: memSet m a v

/-- Is every address of `m` at or above `lo`, are they strictly rising, and is no byte 0? -/
def memWfFrom : Nat → List Host.Cell → Bool
  | _, [] => true
  | lo, (k, b) :: m => decide (lo ≤ k) && b != 0#8 && memWfFrom (k + 1) m

/-- The canonical form of a memory. -/
def memWf (m : List Host.Cell) : Bool := memWfFrom 0 m

/-- Byte `k` of a word, byte 0 the least significant (R52: `v[8k+7:8k]`). -/
def byteOf (v : Word) (k : Nat) : Byte := v.extractLsb' (8 * k) 8

/-- Which byte of the word lies at the lowest address plus `k` (R52). -/
def lane (o : ByteOrder) (k : Nat) : Nat :=
  match o with
  | .little => k
  | .big => 3 - k

/-- `MemRead(a, 4)` (R16, R52). -/
def memReadWord (o : ByteOrder) (m : List Host.Cell) (a : Nat) : Word :=
  match o with
  | .little => memGet m (a + 3) ++ memGet m (a + 2) ++ memGet m (a + 1) ++ memGet m a
  | .big => memGet m a ++ memGet m (a + 1) ++ memGet m (a + 2) ++ memGet m (a + 3)

/-- `MemWrite(a, 4, v)` (R16, R52). -/
def memWriteWord (o : ByteOrder) (m : List Host.Cell) (a : Nat) (v : Word) : List Host.Cell :=
  memSet (memSet (memSet (memSet m a (byteOf v (lane o 0))) (a + 1) (byteOf v (lane o 1)))
    (a + 2) (byteOf v (lane o 2))) (a + 3) (byteOf v (lane o 3))

/-- The byte of data memory at `a`. -/
def State.readByte (s : State) (a : Nat) : Byte := memGet s.mem a

/-- The word at `ea`, in the configured byte order (R52, R166). -/
def State.readWord (s : State) (ea : Word) : Word := memReadWord s.cfg.byteOrder s.mem ea.toNat

/-- Store a word at `ea`, in the configured byte order (R52, R167). -/
def State.writeWord (s : State) (ea v : Word) : State :=
  { s with mem := memWriteWord s.cfg.byteOrder s.mem ea.toNat v }

/-! ### Registers -/

/-- The register-file entry of register `i` (R25). -/
def State.regEntry (s : State) (i : Reg) : RegEntry := s.rf[i.toNat]'i.isLt

/-- Replace the register-file entry of register `i`. -/
def State.setRegEntry (s : State) (i : Reg) (e : RegEntry) : State :=
  { s with rf := s.rf.set i.toNat e i.isLt }

/-- `x[i]`; register 0 always reads 0 (R15, R26). -/
def State.reg (s : State) (i : Reg) : Word := if i = 0 then 0 else (s.regEntry i).value

/-- `x[i] <- v`; a write of register 0 is discarded (R15, R26). -/
def State.writeReg (s : State) (i : Reg) (v : Word) : State :=
  if i = 0 then s else s.setRegEntry i { s.regEntry i with value := v }

/-- Replace the rename-map entry of register `i`, leaving its value (R30, R93); register 0 is never renamed (R26). -/
def State.setRename (s : State) (i : Reg) (ready : Bool) (tag : Nat) : State :=
  if i = 0 then s else s.setRegEntry i { s.regEntry i with ready := ready, tag := tag }

/-! ### Faults and sequential retirement -/

/-- The code of a cause (R183). -/
def Cause.code : Cause → Nat
  | .fetchFault => 1
  | .misalignedAccess => 2
  | .memoryFault => 3
  | .arithmeticOverflow => 4
  | .unsupportedSyscall => 5

/-- TAKING AN EXCEPTION: the fault is surfaced; the outcome records cause, pc, seq and address, and nothing else changes
(R145, R185, R188). -/
def State.surface (s : State) (c : Cause) (pc : Word) (seq : Nat) (addr : Word) : State :=
  { s with outcome := .faulted c pc seq addr }

/-- The run ends halted (R146). -/
def State.halt (s : State) : State := { s with outcome := .halted }

/-- A sequential step that completes (R98): the destination is written, the pc moves, and the instruction is counted and
takes the next sequence number (assumption log 9). -/
def State.retireSequential (s : State) (rd : Reg) (v next : Word) : State :=
  { s.writeReg rd v with
    archPc := next
    seqNext := s.seqNext + 1
    metrics := { s.metrics with instructionsCommitted := s.metrics.instructionsCommitted + 1 } }

/-- A sequential step that raises `c`: the run ends faulted at this instruction, nothing else changes (R98). -/
def State.raiseSequential (s : State) (c : Cause) (addr : Word) : State :=
  s.surface c s.archPc s.seqNext addr

/-- The sequential step of an instruction whose execution gives `r` (R98, R118). -/
def State.finishSequential (s : State) (rd : Reg) (r : ExecResult) : Host.Outcome State Fault Refusal :=
  match r.exception with
  | some c => .next (s.raiseSequential c r.excAddr)
  | none => .next (s.retireSequential rd r.value r.nextPc)

/-! ### Tables -/

/-- The position and the key of an entry with the lowest key among those that have one, the first such on a tie. -/
def lowestIdx {α : Type} (key : α → Option Nat) : List α → Option (Nat × Nat)
  | [] => none
  | x :: xs =>
    match key x, lowestIdx key xs with
    | none, none => none
    | none, some (i, k) => some (i + 1, k)
    | some k₀, none => some (0, k₀)
    | some k₀, some (i, k) => if k₀ ≤ k then some (0, k₀) else some (i + 1, k)

/-- The position of the first entry that meets `p`. -/
def firstIdx {α : Type} (p : α → Bool) : List α → Option Nat
  | [] => none
  | x :: xs => if p x then some 0 else (firstIdx p xs).map (· + 1)

/-- The entry at position `i`, or `d` outside the table. -/
def entryAt {α : Type} (d : α) : List α → Nat → α
  | [], _ => d
  | x :: _, 0 => x
  | _ :: xs, i + 1 => entryAt d xs i

/-- Apply `f` to the entry at position `i`; outside the table nothing changes. -/
def updateAt {α : Type} (f : α → α) : List α → Nat → List α
  | [], _ => []
  | x :: xs, 0 => f x :: xs
  | x :: xs, i + 1 => x :: updateAt f xs i

/-- `ROB[t]`. -/
def State.robAt (s : State) (t : Nat) : RobEntry := entryAt RobEntry.empty s.rob t

/-- Apply `f` to `ROB[t]`. -/
def State.updateRob (s : State) (t : Nat) (f : RobEntry → RobEntry) : State :=
  { s with rob := updateAt f s.rob t }

/-- Change the metric counters. -/
def State.count (s : State) (f : Metrics → Metrics) : State := { s with metrics := f s.metrics }

end Sys2Proof.Machine
end

