-- ==== Sys2Proof/Machine/Control.lean ====
section
/-!
DEFINITION. Branches and jumps (spec/47_control.md): the result the ALU unit computes (R118, R168) and the sequential
meaning over it (R98). There is no delay slot (D14).
-/

namespace Sys2Proof.Machine

/-- `beq` (R170). -/
def beqResult (a b imm pc : Word) : ExecResult := branchResult (condEq a b) imm pc
/-- `bne` (R171). -/
def bneResult (a b imm pc : Word) : ExecResult := branchResult (condNe a b) imm pc
/-- `bgt` (R172). -/
def bgtResult (a b imm pc : Word) : ExecResult := branchResult (condGt a b) imm pc
/-- `bge` (R173). -/
def bgeResult (a b imm pc : Word) : ExecResult := branchResult (condGe a b) imm pc
/-- `ble` (R174). -/
def bleResult (a b imm pc : Word) : ExecResult := branchResult (condLe a b) imm pc
/-- `blt` (R175). -/
def bltResult (a b imm pc : Word) : ExecResult := branchResult (condLt a b) imm pc
/-- `j` (R176). -/
def jResult (imm : Word) : ExecResult := controlResult 0 true imm
/-- `jal`: the link is `pc + 4` (R177). -/
def jalResult (imm pc : Word) : ExecResult := controlResult (nextSequential pc) true imm
/-- `jr` (R178). -/
def jrResult (a : Word) : ExecResult := controlResult 0 true a

/-- `beq rs, rt, label` (R170). -/
def execBeq (rs1 rs2 : Reg) (imm : Word) (s : State) : Host.Outcome State Fault Refusal :=
  s.finishSequential 0 (beqResult (s.reg rs1) (s.reg rs2) imm s.archPc)

/-- `bne rs, rt, label` (R171). -/
def execBne (rs1 rs2 : Reg) (imm : Word) (s : State) : Host.Outcome State Fault Refusal :=
  s.finishSequential 0 (bneResult (s.reg rs1) (s.reg rs2) imm s.archPc)

/-- `bgt rs, rt, label` (R172). -/
def execBgt (rs1 rs2 : Reg) (imm : Word) (s : State) : Host.Outcome State Fault Refusal :=
  s.finishSequential 0 (bgtResult (s.reg rs1) (s.reg rs2) imm s.archPc)

/-- `bge rs, rt, label` (R173). -/
def execBge (rs1 rs2 : Reg) (imm : Word) (s : State) : Host.Outcome State Fault Refusal :=
  s.finishSequential 0 (bgeResult (s.reg rs1) (s.reg rs2) imm s.archPc)

/-- `ble rs, rt, label` (R174). -/
def execBle (rs1 rs2 : Reg) (imm : Word) (s : State) : Host.Outcome State Fault Refusal :=
  s.finishSequential 0 (bleResult (s.reg rs1) (s.reg rs2) imm s.archPc)

/-- `blt rs, rt, label` (R175). -/
def execBlt (rs1 rs2 : Reg) (imm : Word) (s : State) : Host.Outcome State Fault Refusal :=
  s.finishSequential 0 (bltResult (s.reg rs1) (s.reg rs2) imm s.archPc)

/-- `j label` (R176). -/
def execJ (imm : Word) (s : State) : Host.Outcome State Fault Refusal :=
  s.finishSequential 0 (jResult imm)

/-- `jal label`, which links in register 31, `$ra` (R177). -/
def execJal (imm : Word) (s : State) : Host.Outcome State Fault Refusal :=
  s.finishSequential 31 (jalResult imm s.archPc)

/-- `jr rs` (R178). -/
def execJr (rs1 : Reg) (s : State) : Host.Outcome State Fault Refusal :=
  s.finishSequential 0 (jrResult (s.reg rs1))

end Sys2Proof.Machine
end

