-- ==== Sys2Proof/Machine/IntAlu.lean ====
section
/-!
DEFINITION. Integer arithmetic, logic and constants (spec/45_int_alu.md): for each instruction the result its ALU unit
computes (R118, R151) and its sequential meaning over it (R98).
-/

namespace Sys2Proof.Machine

/-- `add` (R153). -/
def addResult (traps : Bool) (a b pc : Word) : ExecResult := checkedResult traps (a.toInt + b.toInt) pc
/-- `addi` (R154). -/
def addiResult (traps : Bool) (a imm pc : Word) : ExecResult := checkedResult traps (a.toInt + imm.toInt) pc
/-- `sub` (R155). -/
def subResult (traps : Bool) (a b pc : Word) : ExecResult := checkedResult traps (a.toInt - b.toInt) pc
/-- `mul`, the low word of the signed product (R156). -/
def mulResult (a b pc : Word) : ExecResult := valueResult (BitVec.ofInt 32 (a.toInt * b.toInt)) pc
/-- `and` (R157). -/
def andResult (a b pc : Word) : ExecResult := valueResult (a &&& b) pc
/-- `or` (R158). -/
def orResult (a b pc : Word) : ExecResult := valueResult (a ||| b) pc
/-- `xor` (R159). -/
def xorResult (a b pc : Word) : ExecResult := valueResult (a ^^^ b) pc
/-- `sll`: `trunc_32(u(a) * 2^sa)` (R160). -/
def sllResult (a imm pc : Word) : ExecResult := valueResult (BitVec.ofNat 32 (a.toNat * 2 ^ shiftAmount imm)) pc
/-- `srl`: `u(a) div 2^sa` (R161). -/
def srlResult (a imm pc : Word) : ExecResult := valueResult (BitVec.ofNat 32 (a.toNat / 2 ^ shiftAmount imm)) pc
/-- `slt`, signed (R162). -/
def sltResult (a b pc : Word) : ExecResult := valueResult (if condLt a b then 1 else 0) pc
/-- `li` (R163). -/
def liResult (imm pc : Word) : ExecResult := valueResult imm pc
/-- `la` (R164). -/
def laResult (imm pc : Word) : ExecResult := valueResult imm pc

/-- `add rd, rs, rt` (R153). -/
def execAdd (rd rs1 rs2 : Reg) (s : State) : Host.Outcome State Fault Refusal :=
  s.finishSequential rd (addResult s.cfg.overflowTraps (s.reg rs1) (s.reg rs2) s.archPc)

/-- `addi rt, rs, imm` (R154). -/
def execAddi (rd rs1 : Reg) (imm : Word) (s : State) : Host.Outcome State Fault Refusal :=
  s.finishSequential rd (addiResult s.cfg.overflowTraps (s.reg rs1) imm s.archPc)

/-- `sub rd, rs, rt` (R155). -/
def execSub (rd rs1 rs2 : Reg) (s : State) : Host.Outcome State Fault Refusal :=
  s.finishSequential rd (subResult s.cfg.overflowTraps (s.reg rs1) (s.reg rs2) s.archPc)

/-- `mul rd, rs, rt` (R156). -/
def execMul (rd rs1 rs2 : Reg) (s : State) : Host.Outcome State Fault Refusal :=
  s.finishSequential rd (mulResult (s.reg rs1) (s.reg rs2) s.archPc)

/-- `and rd, rs, rt` (R157). -/
def execAnd (rd rs1 rs2 : Reg) (s : State) : Host.Outcome State Fault Refusal :=
  s.finishSequential rd (andResult (s.reg rs1) (s.reg rs2) s.archPc)

/-- `or rd, rs, rt` (R158). -/
def execOr (rd rs1 rs2 : Reg) (s : State) : Host.Outcome State Fault Refusal :=
  s.finishSequential rd (orResult (s.reg rs1) (s.reg rs2) s.archPc)

/-- `xor rd, rs, rt` (R159). -/
def execXor (rd rs1 rs2 : Reg) (s : State) : Host.Outcome State Fault Refusal :=
  s.finishSequential rd (xorResult (s.reg rs1) (s.reg rs2) s.archPc)

/-- `sll rd, rt, sa` (R160). -/
def execSll (rd rs1 : Reg) (imm : Word) (s : State) : Host.Outcome State Fault Refusal :=
  s.finishSequential rd (sllResult (s.reg rs1) imm s.archPc)

/-- `srl rd, rt, sa` (R161). -/
def execSrl (rd rs1 : Reg) (imm : Word) (s : State) : Host.Outcome State Fault Refusal :=
  s.finishSequential rd (srlResult (s.reg rs1) imm s.archPc)

/-- `slt rd, rs, rt` (R162). -/
def execSlt (rd rs1 rs2 : Reg) (s : State) : Host.Outcome State Fault Refusal :=
  s.finishSequential rd (sltResult (s.reg rs1) (s.reg rs2) s.archPc)

/-- `li rd, imm` (R163). -/
def execLi (rd : Reg) (imm : Word) (s : State) : Host.Outcome State Fault Refusal :=
  s.finishSequential rd (liResult imm s.archPc)

/-- `la rd, label` (R164). -/
def execLa (rd : Reg) (imm : Word) (s : State) : Host.Outcome State Fault Refusal :=
  s.finishSequential rd (laResult imm s.archPc)

end Sys2Proof.Machine
end

