-- ==== Sys2Proof/Machine/LoadStore.lean ====
section
/-!
DEFINITION. `lw` and `sw` (spec/46_load_store.md), sequential meaning (R98, R165 to R167). The pipeline's address
resolution is Machine/Execute.lean, its memory port Machine/MemStage.lean, its stores Machine/Commit.lean.
-/

namespace Sys2Proof.Machine

/-- `lw rt, disp(rs)`: `value = MemRead(ea, 4)` of the memory left by all older stores (R166). -/
def execLw (rd rs1 : Reg) (imm : Word) (s : State) : Host.Outcome State Fault Refusal :=
  match addressFault s.cfg.memSize (effectiveAddress (s.reg rs1) imm) with
  | some c => .next (s.raiseSequential c (effectiveAddress (s.reg rs1) imm))
  | none =>
    s.finishSequential rd (valueResult (s.readWord (effectiveAddress (s.reg rs1) imm)) s.archPc)

/-- `sw rt, disp(rs)`: `MemWrite(ea, 4, b)` (R167). -/
def execSw (rs1 rs2 : Reg) (imm : Word) (s : State) : Host.Outcome State Fault Refusal :=
  match addressFault s.cfg.memSize (effectiveAddress (s.reg rs1) imm) with
  | some c => .next (s.raiseSequential c (effectiveAddress (s.reg rs1) imm))
  | none =>
    (s.writeWord (effectiveAddress (s.reg rs1) imm) (s.reg rs2)).finishSequential 0 (valueResult 0 s.archPc)

end Sys2Proof.Machine
end

