-- ==== Sys2Proof/Machine/System.lean ====
section
/-!
DEFINITION. `nop`, `syscall`, `halt` (spec/48_system.md), sequential meaning (R98, R179 to R181).
-/

namespace Sys2Proof.Machine

/-- The exit sentinel: `$v0` is register 2 and the value is 10 (R27, R180). -/
def exitRequested (v0 : Word) : Bool := v0 == 10#32

/-- `nop` (R179). -/
def execNop (s : State) : Host.Outcome State Fault Refusal :=
  s.finishSequential 0 (valueResult 0 s.archPc)

/-- `syscall`: with `x[2] = 10` it commits and the run ends halted, else it raises `UnsupportedSyscall` (R180). -/
def execSyscall (s : State) : Host.Outcome State Fault Refusal :=
  if exitRequested (s.reg 2) then .next (s.retireSequential 0 0 (nextSequential s.archPc)).halt
  else .next (s.raiseSequential .unsupportedSyscall 0)

/-- `halt`: it commits and the run ends halted (R181). -/
def execHalt (s : State) : Host.Outcome State Fault Refusal :=
  .next (s.retireSequential 0 0 (nextSequential s.archPc)).halt

end Sys2Proof.Machine
end

