-- ==== Sys2Proof/Machine/Dispatch.lean ====
section
/-!
DEFINITION. The sequential step of each instruction (R98): one arm per constructor, one call of its meaning.
-/

namespace Sys2Proof.Machine

/-- The instruction rule of `i` applied to `s` (R98). -/
def exec (i : Instr) (s : State) : Host.Outcome State Fault Refusal :=
  match i with
  | .add rd rs1 rs2 => Sys2Proof.Machine.execAdd rd rs1 rs2 s
  | .addi rd rs1 imm => Sys2Proof.Machine.execAddi rd rs1 imm s
  | .sub rd rs1 rs2 => Sys2Proof.Machine.execSub rd rs1 rs2 s
  | .mul rd rs1 rs2 => Sys2Proof.Machine.execMul rd rs1 rs2 s
  | .and rd rs1 rs2 => Sys2Proof.Machine.execAnd rd rs1 rs2 s
  | .or rd rs1 rs2 => Sys2Proof.Machine.execOr rd rs1 rs2 s
  | .xor rd rs1 rs2 => Sys2Proof.Machine.execXor rd rs1 rs2 s
  | .sll rd rs1 imm => Sys2Proof.Machine.execSll rd rs1 imm s
  | .srl rd rs1 imm => Sys2Proof.Machine.execSrl rd rs1 imm s
  | .slt rd rs1 rs2 => Sys2Proof.Machine.execSlt rd rs1 rs2 s
  | .li rd imm => Sys2Proof.Machine.execLi rd imm s
  | .la rd imm => Sys2Proof.Machine.execLa rd imm s
  | .lw rd rs1 imm => Sys2Proof.Machine.execLw rd rs1 imm s
  | .sw rs1 rs2 imm => Sys2Proof.Machine.execSw rs1 rs2 imm s
  | .beq rs1 rs2 imm => Sys2Proof.Machine.execBeq rs1 rs2 imm s
  | .bne rs1 rs2 imm => Sys2Proof.Machine.execBne rs1 rs2 imm s
  | .bgt rs1 rs2 imm => Sys2Proof.Machine.execBgt rs1 rs2 imm s
  | .bge rs1 rs2 imm => Sys2Proof.Machine.execBge rs1 rs2 imm s
  | .ble rs1 rs2 imm => Sys2Proof.Machine.execBle rs1 rs2 imm s
  | .blt rs1 rs2 imm => Sys2Proof.Machine.execBlt rs1 rs2 imm s
  | .j imm => Sys2Proof.Machine.execJ imm s
  | .jal imm => Sys2Proof.Machine.execJal imm s
  | .jr rs1 => Sys2Proof.Machine.execJr rs1 s
  | .nop => Sys2Proof.Machine.execNop s
  | .syscall => Sys2Proof.Machine.execSyscall s
  | .halt => Sys2Proof.Machine.execHalt s

end Sys2Proof.Machine
end

