-- ==== Sys2Proof/Machine/Cache.lean ====
section
/-!
DEFINITION. The I-cache and the D-cache (R63 to R69): set-associative, LRU by stamp, write-back and write-allocate. They
hold no bytes; `Mem` is the one store (R66).
-/

namespace Sys2Proof.Machine

/-- `blk = u(a) div BLOCK` (R63). -/
def cacheBlock (g : CacheConfig) (a : Nat) : Nat := a / g.block
/-- `set = blk mod SETS` (R63). -/
def cacheSet (g : CacheConfig) (a : Nat) : Nat := cacheBlock g a % g.sets
/-- `tag = blk div SETS` (R63). -/
def cacheTag (g : CacheConfig) (a : Nat) : Nat := cacheBlock g a / g.sets

/-- A line hits iff it is valid with the tag (R63). -/
def lineHit (tag : Nat) (l : CacheLine) : Bool := l.valid && l.tag == tag

/-- The way of a set that holds the tag, if any. -/
def hitWay (g : CacheConfig) (c : Cache) (a : Nat) : Option Nat :=
  firstIdx (lineHit (cacheTag g a)) (entryAt [] c.sets (cacheSet g a))

/-- The way a miss replaces: the first invalid line, else the line with the lowest lru stamp (R64). -/
def victimWay (ways : List CacheLine) : Nat :=
  match firstIdx (fun l => !l.valid) ways with
  | some w => w
  | none =>
    match lowestIdx (fun l => some l.lru) ways with
    | some (w, _) => w
    | none => 0

/-- Change line `w` of the set of address `a`. -/
def updateLine (g : CacheConfig) (sets : List (List CacheLine)) (a w : Nat) (f : CacheLine → CacheLine) :
    List (List CacheLine) :=
  updateAt (fun ways => updateAt f ways w) sets (cacheSet g a)

/-- One access: a read (R64), or a write, which also makes the line dirty (R65). Answers whether it hit. -/
def cacheAccess (g : CacheConfig) (write : Bool) (c : Cache) (a : Nat) : Bool × Cache :=
  match hitWay g c a with
  | some w =>
    (true, ⟨updateLine g c.sets a w (fun l => { l with lru := c.stamp + 1, dirty := l.dirty || write }), c.stamp + 1⟩)
  | none =>
    (false,
      ⟨updateLine g c.sets a (victimWay (entryAt [] c.sets (cacheSet g a)))
          (fun _ => ⟨true, cacheTag g a, write, c.stamp + 1⟩),
        c.stamp + 1⟩)

/-- "On hit, latency is 1. On miss, latency is a configured miss penalty" (R64, R65). -/
def cacheLatency (g : CacheConfig) (hit : Bool) : Nat := if hit then 1 else g.miss

/-- `icache.read(p, 4)`, counted (R64, R67). -/
def State.icacheRead (s : State) (p : Word) : Bool × State :=
  match cacheAccess s.cfg.icache false s.icache p.toNat with
  | (hit, c) =>
    (hit, { s with
      icache := c
      metrics := { s.metrics with
        icacheAccesses := s.metrics.icacheAccesses + 1
        icacheHits := s.metrics.icacheHits + (if hit then 1 else 0) } })

/-- One D-cache access, counted (R64, R65, R68). -/
def State.dcacheAccess (s : State) (write : Bool) (a : Word) : Bool × State :=
  match cacheAccess s.cfg.dcache write s.dcache a.toNat with
  | (hit, c) =>
    (hit, { s with
      dcache := c
      metrics := { s.metrics with
        dcacheAccesses := s.metrics.dcacheAccesses + 1
        dcacheHits := s.metrics.dcacheHits + (if hit then 1 else 0) } })

end Sys2Proof.Machine
end

