-- ==== Sys2Proof/Machine/Predictor.lean ====
section
/-!
DEFINITION. Branch prediction and the branch-target buffer (R107 to R112).
-/

namespace Sys2Proof.Machine

/-- The index of a pattern-table entry: `(pc >> 2) mod BP_N`, with gshare's history folded in (R107). -/
def phtIndex (c : Config) (pc : Word) (history : Nat) : Nat :=
  match c.bpType with
  | .gshare => ((pc.toNat >>> 2) ^^^ history) % c.bpEntries
  | .bimodal | .alwaysTaken => (pc.toNat >>> 2) % c.bpEntries

/-- The counter a prediction or an update reads. -/
def phtAt (p : Predictor) (i : Nat) : BitVec 2 := entryAt 0#2 p.pht i

/-- `dir` of a conditional branch (R107). -/
def predictDirection (c : Config) (p : Predictor) (pc : Word) : Bool :=
  match c.bpType with
  | .alwaysTaken => true
  | .bimodal | .gshare => decide (2 ≤ (phtAt p (phtIndex c pc p.ghr)).toNat)

/-- Does a BTB entry hit for `pc` (R110)? -/
def btbMatches (pc : Word) (e : BtbEntry) : Bool := e.valid && e.pc == pc

/-- The BTB position that holds `pc`, if any (R110). -/
def btbFind (p : Predictor) (pc : Word) : Option Nat := firstIdx (btbMatches pc) p.btb

/-- An empty BTB entry (R47). -/
def BtbEntry.empty : BtbEntry := ⟨false, 0, 0, 0⟩

/-- Look `pc` up: a hit answers the target and stamps the entry (R110). DESIGN CHOICE (assumption log 30): the stamp counter
is incremented before it is written; R110 says only that it is incremented per stamp. -/
def btbLookup (p : Predictor) (pc : Word) : Option Word × Predictor :=
  match btbFind p pc with
  | some i =>
    (some (entryAt BtbEntry.empty p.btb i).target,
      { p with btb := updateAt (fun e => { e with lru := p.btbStamp + 1 }) p.btb i, btbStamp := p.btbStamp + 1 })
  | none => (none, p)

/-- The position an insert of `pc` writes: the entry for `pc`, else the first invalid one, else the one with the lowest
lru stamp (R110). -/
def btbSlot (p : Predictor) (pc : Word) : Nat :=
  match btbFind p pc with
  | some i => i
  | none =>
    match firstIdx (fun e => !e.valid) p.btb with
    | some i => i
    | none =>
      match lowestIdx (fun e => some e.lru) p.btb with
      | some (i, _) => i
      | none => 0

/-- Insert `(pc, target)` and stamp it (R110), the stamp counter incremented first (DESIGN CHOICE, assumption log 30). -/
def btbInsert (p : Predictor) (pc target : Word) : Predictor :=
  { p with
    btb := updateAt (fun _ => ⟨true, pc, target, p.btbStamp + 1⟩) p.btb (btbSlot p pc)
    btbStamp := p.btbStamp + 1 }

/-- What fetch predicts for a record: taken, target, and whether fetch stalls one tick for the target. -/
structure Prediction where
  taken : Bool
  target : Word
  stall1 : Bool
deriving DecidableEq, Repr

/-- Not taken (R107, R108). -/
def Prediction.notTaken : Prediction := ⟨false, 0, false⟩

/-- `predict(f, p)` (R107, R108): the BTB is read only when the direction is taken; on a BTB miss a direct instruction is
taken to its own target with one stall tick, and `jr` is predicted not taken. -/
def predict (c : Config) (p : Predictor) (r : InstrRecord) (pc : Word) : Prediction × Predictor :=
  if isUnconditional r.op || (isConditional r.op && predictDirection c p pc) then
    match btbLookup p pc with
    | (some t, p') => (⟨true, t, false⟩, p')
    | (none, p') => if r.op = .jr then (.notTaken, p') else (⟨true, r.imm, true⟩, p')
  else (.notTaken, p)

/-- Shift an outcome into a `BP_H`-bit history (R109). -/
def shiftHistory (c : Config) (g : Nat) (taken : Bool) : Nat := (2 * g + taken.toNat) % 2 ^ c.bpHistory

/-- The speculative history update of a fetched record: gshare only, conditional branches only (R109). -/
def historyAtFetch (c : Config) (p : Predictor) (r : InstrRecord) (taken : Bool) : Predictor :=
  if c.bpType = .gshare ∧ isConditional r.op then { p with ghr := shiftHistory c p.ghr taken } else p

/-- One step of a 2-bit saturating counter (R111). -/
def counterStep (v : BitVec 2) (taken : Bool) : BitVec 2 :=
  if taken then (if v = 3#2 then 3#2 else v + 1#2) else (if v = 0#2 then 0#2 else v - 1#2)

/-- Is the opcode of a ROB entry one that meets `f`? A fetch fault record has none. -/
def opIs (f : Opcode → Bool) (o : Option Opcode) : Bool :=
  match o with
  | some op => f op
  | none => false

/-- The pattern-table update at commit (R111 (1)). -/
def phtUpdate (c : Config) (p : Predictor) (e : RobEntry) : Predictor :=
  if opIs isConditional e.op ∧ c.bpType ≠ .alwaysTaken then
    { p with pht := updateAt (fun v => counterStep v e.actualTaken) p.pht (phtIndex c e.pc e.ghrSnap) }
  else p

/-- The BTB update at commit (R111 (2)). -/
def btbUpdate (p : Predictor) (e : RobEntry) : Predictor :=
  if e.actualTaken then btbInsert p e.pc e.actualNextPc else p

/-- The predictor update when the control instruction `e` commits (R111). -/
def predictorUpdate (c : Config) (p : Predictor) (e : RobEntry) : Predictor := btbUpdate (phtUpdate c p e) e

/-- The history repair of a squash after `e` (R112): gshare only. -/
def historyRepair (c : Config) (p : Predictor) (e : RobEntry) : Predictor :=
  if c.bpType = .gshare then
    { p with ghr := if opIs isConditional e.op then shiftHistory c e.ghrSnap e.actualTaken else e.ghrSnap }
  else p

end Sys2Proof.Machine
end

