-- ==== Sys2Proof/Machine/Commit.lean ====
section
/-!
DEFINITION. The W stage (spec/44_rob.md): in-order commit, surfacing of faults, misprediction and squash (R140 to R149).
-/

namespace Sys2Proof.Machine

/-- The misprediction criterion (R147). -/
def RobEntry.mispredicted (e : RobEntry) : Bool :=
  e.fetchedNextPc != e.actualNextPc || (e.isCtl && e.predTaken != e.actualTaken)

/-- Does committing the entry end the run halted (R146)? -/
def RobEntry.halts (e : RobEntry) : Bool := e.op == some .halt || e.op == some .syscall

/-- Has the destination already been written in this tick (R142)? -/
def RobEntry.writtenTwice (e : RobEntry) (written : List Reg) : Bool :=
  match e.dest with
  | some d => written.contains d
  | none => false

/-- The registers written in this tick once `e` has committed (R140). -/
def RobEntry.addWritten (e : RobEntry) (written : List Reg) : List Reg :=
  match e.dest with
  | some d => d :: written
  | none => written

/-- The register part of a commit: the value is written, and the register is ready again only if its tag still names this
entry (R143). -/
def State.commitRegister (s : State) (h : Nat) (e : RobEntry) : State :=
  match e.dest with
  | none => s
  | some d =>
    let t := s.writeReg d e.value
    if (t.regEntry d).ready = false ∧ (t.regEntry d).tag = h then t.setRename d true (t.regEntry d).tag else t

/-- The memory part of a commit: a store writes `Mem` and accesses the D-cache, whose latency is not waited for (R143,
D26). -/
def State.commitStore (s : State) (e : RobEntry) : State :=
  if e.isStore then ((s.writeWord e.stAddr e.stValue).dcacheAccess true e.stAddr).2 else s

/-- The LSQ part of a commit (R138, R143). -/
def State.commitLsq (s : State) (e : RobEntry) : State :=
  if e.hasLsq then { s with lsq := s.lsq.tail } else s

/-- The control part of a commit: branch counters and predictor update (R143, R111, D48). -/
def State.commitControl (s : State) (e : RobEntry) : State :=
  if e.isCtl then
    { s with
      metrics := { s.metrics with
        branchPredictions := s.metrics.branchPredictions + 1
        branchMispredictions := s.metrics.branchMispredictions + (if e.mispredicted then 1 else 0) }
      pred := predictorUpdate s.cfg s.pred e }
  else s

/-- The last part of a commit: `arch_pc`, the commit counter, and the ROB slot freed (R143). -/
def State.commitFree (s : State) (h : Nat) (e : RobEntry) : State :=
  { s with
    archPc := e.actualNextPc
    metrics := { s.metrics with instructionsCommitted := s.metrics.instructionsCommitted + 1 }
    rob := updateAt (fun x => { x with valid := false }) s.rob h
    robHead := (h + 1) % s.cfg.robCap
    robCount := s.robCount - 1 }

/-- `commit_one(e, m)` for the head entry `e` (R143). -/
def State.commitOne (s : State) (e : RobEntry) : State :=
  ((((s.commitRegister s.robHead e).commitStore e).commitLsq e).commitControl e).commitFree s.robHead e

/-- Fetch after a squash behind `e` (R112): the buffer is emptied and fetch restarts at `e.actual_next_pc`. -/
def State.redirect (s : State) (e : RobEntry) : State :=
  { s with
    fb := []
    fetch := { s.fetch with pc := e.actualNextPc, stall := 0, blocked := false }
    pred := historyRepair s.cfg s.pred e }

/-- `squash_after(e)` (R148, R149): every structure is emptied, every register is ready, fetch is redirected. -/
def State.squashAfter (s : State) (e : RobEntry) : State :=
  State.redirect
    { s with
      rob := s.rob.map (fun y => { y with valid := false })
      robTail := s.robHead
      robCount := 0
      rs := s.rs.map (fun l => l.map (fun x => { x with valid := false }))
      fu := s.fu.map (fun l => l.map (fun u => { u with busy := false }))
      cdbq := []
      lsq := []
      mport := { s.mport with busy := false }
      dl := []
      rf := mapRegisters (fun r => { r with ready := true }) s.rf }
    e

/-- What commit does at the head (R140). -/
inductive HeadAction where
  /-- nothing: no entry, an entry that is not completed (R141), or a second write of a register (R142) -/
  | wait
  /-- the head's fault is surfaced (R145, R180) -/
  | surface (e : RobEntry) (c : Cause) (addr : Word)
  /-- the head is retired -/
  | retire (e : RobEntry)
deriving DecidableEq, Repr

/-- The head of the ROB. -/
def State.headEntry (s : State) : RobEntry := s.robAt s.robHead

/-- The decision of the commit loop at the head, in the order of R140. -/
def State.headAction (s : State) (written : List Reg) : HeadAction :=
  if s.robCount = 0 then .wait
  else if s.headEntry.completed = false then .wait
  else
    match s.headEntry.exception with
    | some c => .surface s.headEntry c s.headEntry.excAddr
    | none =>
      if s.headEntry.writtenTwice written then .wait
      else if s.headEntry.op = some .syscall ∧ exitRequested (s.reg 2) = false then
        .surface s.headEntry .unsupportedSyscall 0
      else .retire s.headEntry

/-- The commit loop with `n` retirements left in this tick (R140). -/
def commitLoop : Nat → List Reg → State → State
  | 0, _, s => s
  | n + 1, written, s =>
    match s.headAction written with
    | .wait => s
    | .surface e c addr => s.surface c e.pc e.seq addr
    | .retire e =>
      if e.halts then (s.commitOne e).halt
      else if e.mispredicted then (s.commitOne e).squashAfter e
      else commitLoop n (e.addWritten written) (s.commitOne e)

/-- The entries the commit loop retires, oldest first (R140): what the loop above does, as a list. -/
def commitLog : Nat → List Reg → State → List RobEntry
  | 0, _, _ => []
  | n + 1, written, s =>
    match s.headAction written with
    | .wait => []
    | .surface _ _ _ => []
    | .retire e =>
      if e.halts then [e]
      else if e.mispredicted then [e]
      else e :: commitLog n (e.addWritten written) (s.commitOne e)

/-- `commit_stage()` (R140). -/
def State.commitStage (s : State) : State := commitLoop s.cfg.commitWidth [] s

/-- The entries the commit stage retires, oldest first. -/
def State.commitStageLog (s : State) : List RobEntry := commitLog s.cfg.commitWidth [] s

end Sys2Proof.Machine
end

