-- ==== Sys2Proof/Machine/Issue.lean ====
section
/-!
DEFINITION. The I stage (R95) and operand capture (R96).
-/

namespace Sys2Proof.Machine

/-- `capture(src)` (R96). DESIGN CHOICE (assumption log 28): the `tag` of a slot captured ready is 0; R34 gives the slot a
tag, R96 gives a ready capture none, and no rule reads it. -/
def State.capture (s : State) (src : Snapshot) : Operand :=
  match src with
  | .const0 => ⟨true, 0, 0⟩
  | .arch i => ⟨true, s.reg i, 0⟩
  | .tag t q i =>
    if (s.robAt t).valid = true ∧ (s.robAt t).seq = q then
      if (s.robAt t).completed = true ∧ (s.robAt t).exception = none then ⟨true, (s.robAt t).value, 0⟩
      else ⟨false, 0, t⟩
    else ⟨true, s.reg i, 0⟩

/-- The class of a decoded record: none for fetch fault records too (R90, R95). -/
def bodyClass (b : Option InstrRecord) : Option FuClass :=
  match b with
  | some r => opClass r.op
  | none => none

/-- The reservation-station entry of a decoded record of class `k` (R95). -/
def State.stationEntry (s : State) (k : FuClass) (d : DecRec) (r : InstrRecord) : RsEntry where
  valid := true
  cls := k
  rob := d.rob
  seq := d.seq
  op := r.op
  imm := r.imm
  pc := d.fetched.pc
  fetchedNextPc := d.fetched.fetchedNextPc
  a := s.capture d.src1
  b := s.capture d.src2
  issuedCycle := s.cycle

/-- The lowest free position of a station (R95). -/
def freeStation (rs : List RsEntry) : Option Nat := firstIdx (fun e => !e.valid) rs

/-- The issue loop with `n` records left in this tick (R95). -/
def issueLoop : Nat → State → State
  | 0, s => s
  | n + 1, s =>
    match s.dl with
    | [] => s
    | d :: rest =>
      match d.fetched.body with
      | none => issueLoop n { s with dl := rest }
      | some r =>
        match opClass r.op with
        | none => issueLoop n { s with dl := rest }
        | some k =>
          match freeStation (s.rs.get k) with
          | none => s
          | some j =>
            issueLoop n
              { s with
                dl := rest
                rs := s.rs.set k (updateAt (fun _ => s.stationEntry k d r) (s.rs.get k) j) }

/-- `issue_stage()` (R95). -/
def State.issueStage (s : State) : State := issueLoop s.cfg.issueWidth s

end Sys2Proof.Machine
end

