-- ==== Sys2Proof/Machine/DecodeStage.lean ====
section
/-!
DEFINITION. The D stage (R90): allocation (R91), dependency snapshot (R92) and destination rename (R93).
-/

namespace Sys2Proof.Machine

/-- `snap(i)` (R92). -/
def State.snap (s : State) (i : Reg) : Snapshot :=
  if i = 0 then .const0
  else if (s.regEntry i).ready then .arch i
  else .tag (s.regEntry i).tag (s.robAt (s.regEntry i).tag).seq i

/-- The snapshot of the first source (R91). -/
def State.snap1 (s : State) (b : Option InstrRecord) : Snapshot :=
  match b with
  | some r => if readsRs1 r.op then s.snap r.rs1 else .const0
  | none => .const0

/-- The snapshot of the second source (R91). -/
def State.snap2 (s : State) (b : Option InstrRecord) : Snapshot :=
  match b with
  | some r => if readsRs2 r.op then s.snap r.rs2 else .const0
  | none => .const0

/-- Does a record's opcode meet `f`? A fetch fault record's does not. -/
def bodyIs (f : Opcode → Bool) (b : Option InstrRecord) : Bool :=
  match b with
  | some r => f r.op
  | none => false

/-- The destination of a fetched record (R91). -/
def bodyDest (b : Option InstrRecord) : Option Reg :=
  match b with
  | some r => destination r
  | none => none

/-- The ROB entry of a newly decoded record (R91): a fetch fault record is complete with `FetchFault` (R103). -/
def newRobEntry (f : FetchRec) (seq : Nat) : RobEntry where
  valid := true
  seq := seq
  pc := f.pc
  op := f.body.map (·.op)
  dest := bodyDest f.body
  value := 0
  completed := bodyIs completesAtDecode f.body || f.body.isNone
  exception := if f.body.isNone then some .fetchFault else none
  excAddr := if f.body.isNone then f.pc else 0
  isCtl := bodyIs isControl f.body
  predTaken := f.predTaken
  actualTaken := false
  fetchedNextPc := f.fetchedNextPc
  actualNextPc := nextSequential f.pc
  ghrSnap := f.ghrSnap
  isStore := bodyIs (· == .sw) f.body
  stAddr := 0
  stValue := 0
  hasLsq := bodyIs isMemory f.body

/-- The LSQ entry of a newly decoded load or store (R91, R126). -/
def newLsqEntry (kind : LsqKind) (seq rob : Nat) : LsqEntry where
  seq := seq
  rob := rob
  kind := kind
  addrOk := false
  addr := 0
  fault := none
  data := 0
  lstate := .waitAddr

/-- The destination's rename (R93). -/
def State.renameDest (s : State) (d : Option Reg) (t : Nat) : State :=
  match d with
  | some i => s.setRename i false t
  | none => s

/-- The LSQ allocation of a load or store (R91). -/
def State.allocateLsq (s : State) (b : Option InstrRecord) (seq rob : Nat) : State :=
  if bodyIs isMemory b then
    { s with lsq := s.lsq ++ [newLsqEntry (if bodyIs (· == .lw) b then .load else .store) seq rob] }
  else s

/-- `allocate(f)` (R91): the snapshots are taken after the new ROB entry is written and before the destination is
renamed. -/
def State.allocate (s : State) (f : FetchRec) : State :=
  let s₁ : State :=
    { s with
      robTail := (s.robTail + 1) % s.cfg.robCap
      robCount := s.robCount + 1
      seqNext := s.seqNext + 1
      rob := updateAt (fun _ => newRobEntry f s.seqNext) s.rob s.robTail }
  let d : DecRec := ⟨f, s.seqNext, s.robTail, s₁.snap1 f.body, s₁.snap2 f.body⟩
  let s₂ := (s₁.renameDest (bodyDest f.body) s.robTail).allocateLsq f.body s.seqNext s.robTail
  { s₂ with dl := s₂.dl ++ [d] }

/-- The resources decode has left to reserve (R90). -/
structure Room where
  rob : Nat
  lsq : Nat
  rs : PerClass Nat
deriving DecidableEq, Repr

/-- The number of valid entries of a station. -/
def countValid (rs : List RsEntry) : Nat := rs.countP (fun e => e.valid)

/-- The room at the start of the decode stage (R90). -/
def State.room (s : State) : Room where
  rob := s.cfg.robCap - s.robCount
  lsq := s.cfg.lsqCap - s.lsq.length
  rs := ⟨s.cfg.rsCap.alu - countValid s.rs.alu, s.cfg.rsCap.fpu - countValid s.rs.fpu,
    s.cfg.rsCap.lsu - countValid s.rs.lsu⟩

/-- Is there a free entry of the class, or is none needed (R90)? -/
def Room.hasStation (r : Room) (k : Option FuClass) : Bool :=
  match k with
  | some c => decide (r.rs.get c ≠ 0)
  | none => true

/-- The room left after a record has been taken (R90). -/
def Room.take (r : Room) (b : Option InstrRecord) : Room where
  rob := r.rob - 1
  lsq := if bodyIs isMemory b then r.lsq - 1 else r.lsq
  rs := match bodyClass b with
    | some c => r.rs.set c (r.rs.get c - 1)
    | none => r.rs

/-- The decode loop with `n` records left in this tick (R90): at most one stall is counted. -/
def decodeLoop : Nat → Room → State → State
  | 0, _, s => s
  | n + 1, r, s =>
    match s.fb with
    | [] => s
    | f :: rest =>
      if r.rob = 0 then s.count (fun m => { m with stallRobFull := m.stallRobFull + 1 })
      else if r.hasStation (bodyClass f.body) = false then
        s.count (fun m => { m with stallRsFull := m.stallRsFull + 1 })
      else if bodyIs isMemory f.body = true ∧ r.lsq = 0 then
        s.count (fun m => { m with stallLsqFull := m.stallLsqFull + 1 })
      else decodeLoop n (r.take f.body) (State.allocate { s with fb := rest } f)

/-- `decode_stage()` (R90). -/
def State.decodeStage (s : State) : State :=
  if s.dl.isEmpty then decodeLoop s.cfg.issueWidth s.room s else s

end Sys2Proof.Machine
end

