-- ==== Sys2Proof/Machine/MemStage.lean ====
section
/-!
DEFINITION. The M stage (spec/43_lsq.md): eligibility, store-to-load forwarding and the memory port (R130 to R137).
-/

namespace Sys2Proof.Machine

/-- A store entry partially overlaps a load at `a`: the two 4-byte ranges meet and the addresses differ (R131). -/
def partialOverlap (st : LsqEntry) (a : Word) : Bool :=
  decide (st.addr.toNat < a.toNat + 4) && decide (a.toNat < st.addr.toNat + 4) && st.addr != a

/-- An older entry holds a load at `a` back: it is a store whose address is not resolved, or that partially overlaps and
has not faulted (R130, R132). -/
def blocksLoad (a : Word) (e : LsqEntry) : Bool :=
  e.kind == .store && (!e.addrOk || (e.fault == none && partialOverlap e a))

/-- `eligible(L)`, given the entries older than `L` (R130). -/
def eligible (older : List LsqEntry) (l : LsqEntry) : Bool :=
  l.kind == .load && l.lstate == .ready && older.all (fun e => !blocksLoad l.addr e)

/-- Does an older entry forward to a load at `a` (R133)? -/
def forwards (a : Word) (e : LsqEntry) : Bool :=
  e.kind == .store && e.fault == none && e.addr == a

/-- The forwarding store of a load at `a`: the youngest of the older entries that forwards (R133). `youngestFirst` lists
the older entries from the load towards the head. -/
def forwardingStore (youngestFirst : List LsqEntry) (a : Word) : Option LsqEntry :=
  youngestFirst.find? (forwards a)

/-- The oldest eligible load of a queue, with the entries older than it from the youngest back (R135). The LSQ is in
program order, so the oldest is the first (R126). -/
def oldestEligible : List LsqEntry → List LsqEntry → Option (LsqEntry × List LsqEntry)
  | _, [] => none
  | older, l :: ls => if eligible older l then some (l, older) else oldestEligible (l :: older) ls

/-- Set `lstate` of the load of ROB entry `t`. -/
def setLoadState (st : LoadState) (t : Nat) (q : List LsqEntry) : List LsqEntry :=
  q.map (fun e => if e.rob = t then { e with lstate := st } else e)

/-- The value and latency of a load access, with the D-cache access and its stall count if nothing forwards (R133 to
R135, R137). -/
def State.loadAccess (s : State) (a : Word) (fwd : Option LsqEntry) : Word × Nat × State :=
  match fwd with
  | some st => (st.data, 1, s)
  | none =>
    match s.dcacheAccess false a with
    | (hit, t) =>
      (s.readWord a, cacheLatency s.cfg.dcache hit,
        if hit then t
        else t.count (fun m => { m with stallDcacheMiss := m.stallDcacheMiss + s.cfg.dcache.miss }))

/-- Start the oldest eligible load if the port is free (R135, first part). -/
def State.startLoad (s : State) : State :=
  if s.mport.busy then s
  else
    match oldestEligible [] s.lsq with
    | none => s
    | some (l, older) =>
      match s.loadAccess l.addr (forwardingStore older l.addr) with
      | (v, lat, t) =>
        { t with
          mport := ⟨true, lat, l.seq, l.rob, v⟩
          lsq := setLoadState .accessing l.rob t.lsq }

/-- The result the port posts for its load (R134). -/
def State.loadResult (s : State) : CdbResult where
  seq := s.mport.seq
  rob := s.mport.rob
  value := s.mport.value
  exception := none
  excAddr := 0
  actualTaken := false
  actualNextPc := nextSequential (s.robAt s.mport.rob).pc
  lsq := some s.mport.rob

/-- Count the port down; when it reaches 0 it posts its result and becomes free (R135, second part). -/
def State.countPort (s : State) : State :=
  if s.mport.busy then
    if s.mport.remaining - 1 = 0 then
      { s with
        cdbq := s.cdbq ++ [s.loadResult]
        mport := { s.mport with busy := false, remaining := s.mport.remaining - 1 } }
    else { s with mport := { s.mport with remaining := s.mport.remaining - 1 } }
  else s

/-- `memory_stage()` (R135). -/
def State.memoryStage (s : State) : State := s.startLoad.countPort

end Sys2Proof.Machine
end

