-- ==== Sys2Proof/Machine/Execute.lean ====
section
/-!
DEFINITION. The X stage (spec/42_rs_fu_cdb.md): selection, the units' countdown, address resolution, and the common data
bus (R113 to R124, R128).
-/

namespace Sys2Proof.Machine

/-- `exec(op, a, b, imm, pc)` of an ALU unit (R118). Opcodes that no ALU unit holds (R77) get the neutral result. -/
def unitResult (traps : Bool) (op : Opcode) (a b imm pc : Word) : ExecResult :=
  match op with
  | .add => addResult traps a b pc
  | .addi => addiResult traps a imm pc
  | .sub => subResult traps a b pc
  | .mul => mulResult a b pc
  | .and => andResult a b pc
  | .or => orResult a b pc
  | .xor => xorResult a b pc
  | .sll => sllResult a imm pc
  | .srl => srlResult a imm pc
  | .slt => sltResult a b pc
  | .li => liResult imm pc
  | .la => laResult imm pc
  | .beq => beqResult a b imm pc
  | .bne => bneResult a b imm pc
  | .bgt => bgtResult a b imm pc
  | .bge => bgeResult a b imm pc
  | .ble => bleResult a b imm pc
  | .blt => bltResult a b imm pc
  | .j => jResult imm
  | .jal => jalResult imm pc
  | .jr => jrResult a
  | .lw | .sw | .nop | .syscall | .halt => valueResult 0 pc

/-! ### Selection -/

/-- `ready(e)` (R113). -/
def RsEntry.isReady (e : RsEntry) : Bool := e.a.ready && e.b.ready

/-- The selection key of an entry: its `seq` if it is valid and ready (R114). -/
def selectKey (e : RsEntry) : Option Nat := if e.valid && e.isReady then some e.seq else none

/-- The position of the oldest ready entry (R114). -/
def oldestReady (rs : List RsEntry) : Option Nat := (lowestIdx selectKey rs).map (·.1)

/-- Bind an entry to a unit (R115). -/
def bindUnit (lat : Nat) (e : RsEntry) : FuUnit where
  busy := true
  remaining := lat
  op := e.op
  a := e.a.value
  b := e.b.value
  imm := e.imm
  pc := e.pc
  fetchedNextPc := e.fetchedNextPc
  rob := e.rob
  seq := e.seq

/-- Free an entry. -/
def RsEntry.free (e : RsEntry) : RsEntry := { e with valid := false }

/-- Selection for one class: each free unit, in index order, takes the oldest ready entry not yet taken (R114, R116).
Answers the units, the station and how many entries were dispatched. -/
def dispatchUnits (lat : Nat) (k : FuClass) : List FuUnit → List RsEntry → List FuUnit × List RsEntry × Nat
  | [], rs => ([], rs, 0)
  | u :: us, rs =>
    if u.busy then
      match dispatchUnits lat k us rs with
      | (us', rs', n) => (u :: us', rs', n)
    else
      match oldestReady rs with
      | none => (u :: us, rs, 0)
      | some i =>
        match dispatchUnits lat k us (updateAt RsEntry.free rs i) with
        | (us', rs', n) => (bindUnit lat (entryAt (RsEntry.empty k) rs i) :: us', rs', n + 1)

/-- Selection for class `k` (R116), with the number dispatched. -/
def State.dispatchClass (s : State) (k : FuClass) : State × Nat :=
  match dispatchUnits (s.cfg.fuLat.get k) k (s.fu.get k) (s.rs.get k) with
  | (us, rs, n) => ({ s with fu := s.fu.set k us, rs := s.rs.set k rs }, n)

/-- Does a valid entry of the station wait for an operand (R124)? -/
def anyWaiting (rs : List RsEntry) : Bool := rs.any (fun e => e.valid && !e.isReady)

/-- Does a valid entry of any class wait for an operand (R116, R124)? -/
def State.someWaiting (s : State) : Bool := anyWaiting s.rs.alu || anyWaiting s.rs.fpu || anyWaiting s.rs.lsu

/-- The RAW-hazard count of a tick that dispatched `n` entries (R124). -/
def State.countRaw (s : State) (n : Nat) : State :=
  if n = 0 ∧ s.someWaiting then s.count (fun m => { m with stallRawHazard := m.stallRawHazard + 1 }) else s

/-- Selection for every class in the order ALU, FPU, LSU, then the RAW-hazard count (R116). -/
def State.selectStage (s : State) : State :=
  match s.dispatchClass .alu with
  | (s₁, n₁) =>
    match s₁.dispatchClass .fpu with
    | (s₂, n₂) =>
      match s₂.dispatchClass .lsu with
      | (s₃, n₃) => s₃.countRaw (n₁ + n₂ + n₃)

/-! ### Advance -/

/-- The result an ALU or FPU unit posts (R118). Where `exec` raises nothing, its `excAddr` is the model's 0 (assumption log
29). -/
def FuUnit.result (u : FuUnit) (traps : Bool) : CdbResult :=
  let r := unitResult traps u.op u.a u.b u.imm u.pc
  { seq := u.seq, rob := u.rob, value := r.value, exception := r.exception, excAddr := r.excAddr,
    actualTaken := r.taken, actualNextPc := r.nextPc, lsq := none }

/-- What resolution writes into the LSQ entry (R128). -/
def LsqEntry.resolved (l : LsqEntry) (ea data : Word) (fault : Option Cause) : LsqEntry :=
  match l.kind with
  | .store => { l with addr := ea, addrOk := true, fault := fault, data := data }
  | .load => { l with addr := ea, addrOk := true, fault := fault, lstate := if fault = none then .ready else .done }

/-- What resolution writes into the ROB entry (R128): a store is completed with its address and data, and a faulting
access is completed with its cause. -/
def RobEntry.resolved (e : RobEntry) (kind : LsqKind) (ea data : Word) (fault : Option Cause) : RobEntry :=
  let e₁ := if kind = .store then { e with stAddr := ea, stValue := data, completed := true } else e
  match fault with
  | some c => { e₁ with completed := true, exception := some c, excAddr := ea }
  | none => e₁

/-- `resolve(u)` (R128): the unit's LSQ entry is the one with its ROB index. -/
def State.resolve (s : State) (u : FuUnit) : State :=
  match s.lsq.find? (fun l => l.rob == u.rob) with
  | none => s
  | some l =>
    let ea := effectiveAddress u.a u.imm
    let fault := addressFault s.cfg.memSize ea
    State.updateRob
      { s with lsq := s.lsq.map (fun x => if x.rob = u.rob then x.resolved ea u.b fault else x) }
      u.rob (fun e => e.resolved l.kind ea u.b fault)

/-- `FU[K][j]`. -/
def State.unitAt (s : State) (k : FuClass) (j : Nat) : FuUnit := entryAt FuUnit.idle (s.fu.get k) j

/-- Replace `FU[K][j]`. -/
def State.setUnit (s : State) (k : FuClass) (j : Nat) (u : FuUnit) : State :=
  { s with fu := s.fu.set k (updateAt (fun _ => u) (s.fu.get k) j) }

/-- `fu_busy[K][j] += 1` (R45). -/
def State.countBusy (s : State) (k : FuClass) (j : Nat) : State :=
  s.count (fun m => { m with fuBusy := m.fuBusy.set k (updateAt (· + 1) (m.fuBusy.get k) j) })

/-- What a unit that has finished does: an LSU unit resolves its address, any other posts its result (R116, R117). -/
def State.finishUnit (s : State) (k : FuClass) (u : FuUnit) : State :=
  match k with
  | .lsu => s.resolve u
  | .alu | .fpu => { s with cdbq := s.cdbq ++ [u.result s.cfg.overflowTraps] }

/-- One unit's part of the advance step (R116, R117). -/
def State.advanceUnit (s : State) (k : FuClass) (j : Nat) : State :=
  if (s.unitAt k j).busy then
    let u := s.unitAt k j
    let s₁ := s.countBusy k j
    if u.remaining - 1 = 0 then
      (s₁.finishUnit k u).setUnit k j { u with remaining := u.remaining - 1, busy := false }
    else s₁.setUnit k j { u with remaining := u.remaining - 1 }
  else s

/-- The advance step of the first `n` units from unit `j` on (R116). -/
def advanceFrom (k : FuClass) : Nat → Nat → State → State
  | 0, _, s => s
  | n + 1, j, s => advanceFrom k n (j + 1) (s.advanceUnit k j)

/-- The advance step of one class. -/
def State.advanceClass (s : State) (k : FuClass) : State := advanceFrom k (s.fu.get k).length 0 s

/-- The advance step: ALU, FPU, LSU (R116). -/
def State.advanceStage (s : State) : State := ((s.advanceClass .alu).advanceClass .fpu).advanceClass .lsu

/-! ### The common data bus -/

/-- Insert a result by rising `seq`. -/
def insertBySeq (r : CdbResult) : List CdbResult → List CdbResult
  | [] => [r]
  | x :: xs => if r.seq ≤ x.seq then r :: x :: xs else x :: insertBySeq r xs

/-- The pending results by rising `seq` (R120). -/
def sortBySeq : List CdbResult → List CdbResult
  | [] => []
  | x :: xs => insertBySeq x (sortBySeq xs)

/-- A slot adopts the value if it waits for the tag (R121). -/
def Operand.wake (t : Nat) (v : Word) (o : Operand) : Operand :=
  if o.ready = false ∧ o.tag = t then { o with ready := true, value := v } else o

/-- Wake both slots of a valid entry (R121). -/
def RsEntry.wake (t : Nat) (v : Word) (e : RsEntry) : RsEntry :=
  if e.valid then { e with a := e.a.wake t v, b := e.b.wake t v } else e

/-- `wake(t, v)` (R121). -/
def State.wake (s : State) (t : Nat) (v : Word) : State :=
  { s with rs := s.rs.map (fun l => l.map (fun e => e.wake t v)) }

/-- What a broadcast writes into the ROB entry (R120, R122). -/
def RobEntry.broadcast (e : RobEntry) (r : CdbResult) : RobEntry :=
  match r.exception with
  | some c =>
    { e with completed := true, actualTaken := r.actualTaken, actualNextPc := r.actualNextPc,
             exception := some c, excAddr := r.excAddr }
  | none =>
    { e with completed := true, actualTaken := r.actualTaken, actualNextPc := r.actualNextPc, value := r.value }

/-- A broadcast marks the load it belongs to done (R120). -/
def State.markLoadDone (s : State) (l : Option Nat) : State :=
  match l with
  | some t => { s with lsq := setLoadState .done t s.lsq }
  | none => s

/-- The broadcast of one result (R120): it completes its ROB entry, and wakes its consumers unless it carries an
exception (R122). -/
def State.broadcastOne (s : State) (r : CdbResult) : State :=
  let s₁ := s.updateRob r.rob (fun e => e.broadcast r)
  let s₂ := match r.exception with
    | none => s₁.wake r.rob r.value
    | some _ => s₁
  s₂.markLoadDone r.lsq

/-- Broadcast results in order. -/
def broadcastAll : List CdbResult → State → State
  | [], s => s
  | r :: rs, s => broadcastAll rs (s.broadcastOne r)

/-- `broadcast()`: the `W_cdb` pending results with the lowest `seq`, in increasing `seq` (R120). -/
def State.broadcastStage (s : State) : State :=
  broadcastAll ((sortBySeq s.cdbq).take s.cfg.cdbWidth)
    { s with cdbq := (sortBySeq s.cdbq).drop s.cfg.cdbWidth }

/-- `execute_stage()`: selection, advance, broadcast (R116). -/
def State.executeStage (s : State) : State := s.selectStage.advanceStage.broadcastStage

end Sys2Proof.Machine
end

