-- ==== Sys2Proof/Decode.lean ====
section
/-!
DEFINITION. The opcode map (R76), the formats with their match and mask (R74, spec/opcode_table.json), decoding a
record word (R79, R80) and its inverse, encoding (R73).
-/

namespace Sys2Proof

/-- The opcode numbers of R76. -/
def Opcode.number : Opcode → BitVec 8
  | .add => 0x01#8 | .addi => 0x02#8 | .sub => 0x03#8 | .mul => 0x04#8
  | .and => 0x05#8 | .or => 0x06#8 | .xor => 0x07#8
  | .sll => 0x08#8 | .srl => 0x09#8 | .slt => 0x0A#8
  | .li => 0x0B#8 | .la => 0x0C#8
  | .lw => 0x0D#8 | .sw => 0x0E#8
  | .beq => 0x0F#8 | .bne => 0x10#8 | .bgt => 0x11#8 | .bge => 0x12#8 | .ble => 0x13#8 | .blt => 0x14#8
  | .j => 0x15#8 | .jal => 0x16#8 | .jr => 0x17#8
  | .nop => 0x18#8 | .syscall => 0x19#8 | .halt => 0x1A#8

/-- Every opcode, in the order of R76. -/
def Opcode.all : List Opcode :=
  [.add, .addi, .sub, .mul, .and, .or, .xor, .sll, .srl, .slt, .li, .la, .lw, .sw,
   .beq, .bne, .bgt, .bge, .ble, .blt, .j, .jal, .jr, .nop, .syscall, .halt]

/-- The opcode with a given number, if the number is in the op column of R76. -/
def Opcode.ofNumber? (n : BitVec 8) : Option Opcode :=
  Opcode.all.find? (fun o => o.number == n)

/-- The `match` column of spec/opcode_table.json. -/
def Opcode.matchBits : Opcode → RecordWord
  | .add => 0x0100000000000000#64 | .addi => 0x0200000000000000#64
  | .sub => 0x0300000000000000#64 | .mul => 0x0400000000000000#64
  | .and => 0x0500000000000000#64 | .or => 0x0600000000000000#64
  | .xor => 0x0700000000000000#64 | .sll => 0x0800000000000000#64
  | .srl => 0x0900000000000000#64 | .slt => 0x0A00000000000000#64
  | .li => 0x0B00000000000000#64 | .la => 0x0C00000000000000#64
  | .lw => 0x0D00000000000000#64 | .sw => 0x0E00000000000000#64
  | .beq => 0x0F00000000000000#64 | .bne => 0x1000000000000000#64
  | .bgt => 0x1100000000000000#64 | .bge => 0x1200000000000000#64
  | .ble => 0x1300000000000000#64 | .blt => 0x1400000000000000#64
  | .j => 0x1500000000000000#64 | .jal => 0x16F8000000000000#64
  | .jr => 0x1700000000000000#64 | .nop => 0x1800000000000000#64
  | .syscall => 0x1900000000000000#64 | .halt => 0x1A00000000000000#64

/-- The `mask` column of spec/opcode_table.json: the bits of a word that are fixed for the format (R74). -/
def Opcode.maskBits : Opcode → RecordWord
  | .add | .sub | .mul | .and | .or | .xor | .slt => 0xFF0001FFFFFFFFFF#64
  | .addi | .lw => 0xFF003FFF00000000#64
  | .sll | .srl => 0xFF003FFFFFFFFFE0#64
  | .li | .la => 0xFF07FFFF00000000#64
  | .sw | .beq | .bne | .bgt | .bge | .ble | .blt => 0xFFF801FF00000000#64
  | .j | .jal => 0xFFFFFFFF00000000#64
  | .jr => 0xFFF83FFFFFFFFFFF#64
  | .nop | .syscall | .halt => 0xFFFFFFFFFFFFFFFF#64

/-- Why a word is illegal (R79, R80). -/
inductive DecodeError where
  /-- bits 63:56 are no opcode number of R76 -/
  | unknownOpcode
  /-- a reserved bit, or a field the format does not use, is not what the format fixes it to -/
  | nonZeroUnusedField
deriving DecidableEq, Repr

/-- The instruction with given fields; a format drops the fields it does not use (R74). -/
def Instr.ofFields (op : Opcode) (rd rs1 rs2 : Reg) (imm : Word) : Instr :=
  match op with
  | .add => .add rd rs1 rs2
  | .addi => .addi rd rs1 imm
  | .sub => .sub rd rs1 rs2
  | .mul => .mul rd rs1 rs2
  | .and => .and rd rs1 rs2
  | .or => .or rd rs1 rs2
  | .xor => .xor rd rs1 rs2
  | .sll => .sll rd rs1 imm
  | .srl => .srl rd rs1 imm
  | .slt => .slt rd rs1 rs2
  | .li => .li rd imm
  | .la => .la rd imm
  | .lw => .lw rd rs1 imm
  | .sw => .sw rs1 rs2 imm
  | .beq => .beq rs1 rs2 imm
  | .bne => .bne rs1 rs2 imm
  | .bgt => .bgt rs1 rs2 imm
  | .bge => .bge rs1 rs2 imm
  | .ble => .ble rs1 rs2 imm
  | .blt => .blt rs1 rs2 imm
  | .j => .j imm
  | .jal => .jal imm
  | .jr => .jr rs1
  | .nop => .nop
  | .syscall => .syscall
  | .halt => .halt

/-- The record of an instruction (R71): unused fields are 0, and `jal` has `rd = 31` (R74). -/
def Instr.record : Instr → InstrRecord
  | .add rd rs1 rs2 => ⟨.add, rd, rs1, rs2, 0⟩
  | .addi rd rs1 imm => ⟨.addi, rd, rs1, 0, imm⟩
  | .sub rd rs1 rs2 => ⟨.sub, rd, rs1, rs2, 0⟩
  | .mul rd rs1 rs2 => ⟨.mul, rd, rs1, rs2, 0⟩
  | .and rd rs1 rs2 => ⟨.and, rd, rs1, rs2, 0⟩
  | .or rd rs1 rs2 => ⟨.or, rd, rs1, rs2, 0⟩
  | .xor rd rs1 rs2 => ⟨.xor, rd, rs1, rs2, 0⟩
  | .sll rd rs1 imm => ⟨.sll, rd, rs1, 0, imm⟩
  | .srl rd rs1 imm => ⟨.srl, rd, rs1, 0, imm⟩
  | .slt rd rs1 rs2 => ⟨.slt, rd, rs1, rs2, 0⟩
  | .li rd imm => ⟨.li, rd, 0, 0, imm⟩
  | .la rd imm => ⟨.la, rd, 0, 0, imm⟩
  | .lw rd rs1 imm => ⟨.lw, rd, rs1, 0, imm⟩
  | .sw rs1 rs2 imm => ⟨.sw, 0, rs1, rs2, imm⟩
  | .beq rs1 rs2 imm => ⟨.beq, 0, rs1, rs2, imm⟩
  | .bne rs1 rs2 imm => ⟨.bne, 0, rs1, rs2, imm⟩
  | .bgt rs1 rs2 imm => ⟨.bgt, 0, rs1, rs2, imm⟩
  | .bge rs1 rs2 imm => ⟨.bge, 0, rs1, rs2, imm⟩
  | .ble rs1 rs2 imm => ⟨.ble, 0, rs1, rs2, imm⟩
  | .blt rs1 rs2 imm => ⟨.blt, 0, rs1, rs2, imm⟩
  | .j imm => ⟨.j, 0, 0, 0, imm⟩
  | .jal imm => ⟨.jal, 31, 0, 0, imm⟩
  | .jr rs1 => ⟨.jr, 0, rs1, 0, 0⟩
  | .nop => ⟨.nop, 0, 0, 0, 0⟩
  | .syscall => ⟨.syscall, 0, 0, 0, 0⟩
  | .halt => ⟨.halt, 0, 0, 0, 0⟩

/-- The fields of a record word (R73). -/
def wordOp (w : RecordWord) : BitVec 8 := w.extractLsb' 56 8
/-- Bits 55:51 (R73). -/
def wordRd (w : RecordWord) : Reg := w.extractLsb' 51 5
/-- Bits 50:46 (R73). -/
def wordRs1 (w : RecordWord) : Reg := w.extractLsb' 46 5
/-- Bits 45:41 (R73). -/
def wordRs2 (w : RecordWord) : Reg := w.extractLsb' 41 5
/-- Bits 31:0 (R73). -/
def wordImm (w : RecordWord) : Word := w.extractLsb' 0 32

/-- Decoding, total on every 64-bit word (R79). -/
def decode (w : RecordWord) : Except DecodeError Instr :=
  match Opcode.ofNumber? (wordOp w) with
  | none => .error .unknownOpcode
  | some op =>
    if w &&& op.maskBits = op.matchBits then
      .ok (Instr.ofFields op (wordRd w) (wordRs1 w) (wordRs2 w) (wordImm w))
    else .error .nonZeroUnusedField

/-- The instruction a word stands for, if it is legal. -/
def decode? (w : RecordWord) : Option Instr :=
  match decode w with
  | .ok i => some i
  | .error _ => none

/-- The word of a record: op, rd, rs1, rs2, nine reserved zeros, imm, from the high bits down (R73). -/
def InstrRecord.word (r : InstrRecord) : RecordWord :=
  r.op.number ++ r.rd ++ r.rs1 ++ r.rs2 ++ 0#9 ++ r.imm

/-- Encoding: the canonical record word of an instruction (R73, R74). -/
def encode (i : Instr) : RecordWord := i.record.word

/-- The instruction the decoder reads from the low `nbits` bits of `w`, the bits above them being 0. A record is one
64-bit word, which fetch reads as a whole (R52: fetch has no byte order). -/
def decodeTableWord (nbits w : Nat) : Option Instr :=
  if 2 ^ 64 ≤ w % 2 ^ nbits then none else decode? (BitVec.ofNat 64 (w % 2 ^ nbits))

end Sys2Proof
end

