-- ==== Sys2Proof/Machine/Fetch.lean ====
section
/-!
DEFINITION. Fetch: the instruction array (R29), the F stage (R102 to R106), and where a loaded program puts a word.
-/

namespace Sys2Proof.Machine

/-- The position in `IMEM` that the address `p` names, if `p` is aligned and inside the text region (R29, R103). -/
def State.textIndex (s : State) (p : Word) : Option Nat :=
  if p.toNat % 4 = 0 ∧ s.cfg.textBase.toNat ≤ p.toNat ∧ p.toNat < s.cfg.textBase.toNat + 4 * s.imem.length then
    some ((p.toNat - s.cfg.textBase.toNat) / 4)
  else none

/-- The word at position `i` of the instruction array. -/
def State.textWord (s : State) (i : Nat) : RecordWord := entryAt 0#64 s.imem i

/-- The instruction at address `p` (R29): none if `p` names no record. No illegal word is in a loaded array (R80). -/
def State.instrAt (s : State) (p : Word) : Option Instr :=
  match s.textIndex p with
  | some i => decode? (s.textWord i)
  | none => none

/-- The fetch fault record of R103. -/
def faultRecord (p : Word) (ghr : Nat) : FetchRec where
  body := none
  pc := p
  predTaken := false
  predTarget := 0
  fetchedNextPc := nextSequential p
  ghrSnap := ghr

/-- The pc fetch follows after a record (R102). -/
def Prediction.next (q : Prediction) (p : Word) : Word := if q.taken then q.target else nextSequential p

/-- The record fetch delivers for an instruction (R102, R104). -/
def fetchedRecord (r : InstrRecord) (p : Word) (q : Prediction) (ghr : Nat) : FetchRec where
  body := some r
  pc := p
  predTaken := q.taken
  predTarget := if q.taken then q.target else 0
  fetchedNextPc := q.next p
  ghrSnap := ghr

/-- Deliver the record `r` at `p`: predict, update the history, append to `FB`, move the fetch pc, and stall one tick for a
target taken from the record (R104, R108, R109). Answers whether the packet ends here. -/
def State.deliver (s : State) (r : InstrRecord) (p : Word) : Bool × State :=
  match predict s.cfg s.pred r p with
  | (q, pred') =>
    (q.taken,
      { s with
        pred := historyAtFetch s.cfg pred' r q.taken
        fb := s.fb ++ [fetchedRecord r p q s.pred.ghr]
        fetch := if q.taken && q.stall1 then { s.fetch with pc := q.next p, stall := 1, stallCause := .target }
          else { s.fetch with pc := q.next p } })

/-- The fetch loop with `n` records left in this tick (R104). -/
def fetchLoop : Nat → State → State
  | 0, s => s
  | n + 1, s =>
    if s.cfg.fbCap ≤ s.fb.length then s
    else
      match s.instrAt s.fetch.pc with
      | none =>
        { s with
          fb := s.fb ++ [faultRecord s.fetch.pc s.pred.ghr]
          fetch := { s.fetch with blocked := true } }
      | some i =>
        match s.icacheRead s.fetch.pc with
        | (false, t) =>
          { t with fetch := { t.fetch with stall := t.cfg.icache.miss, stallCause := .icacheMiss } }
        | (true, t) =>
          match t.deliver i.record s.fetch.pc with
          | (true, u) => u
          | (false, u) => fetchLoop n u

/-- A stalled fetch tick (R104, R106). -/
def State.fetchStalled (s : State) : State :=
  { s with
    fetch := { s.fetch with stall := s.fetch.stall - 1 }
    metrics := if s.fetch.stallCause = .icacheMiss then
        { s.metrics with stallIcacheMiss := s.metrics.stallIcacheMiss + 1 }
      else s.metrics }

/-- `fetch_stage()` (R104). -/
def State.fetchStage (s : State) : State :=
  if s.fetch.stall ≠ 0 then s.fetchStalled
  else if s.fetch.blocked then s
  else fetchLoop s.cfg.fetchWidth s

/-- The address the sequential semantics fetches at, made a multiple of 4. -/
def State.alignedPc (s : State) : Word := s.archPc &&& 0xFFFFFFFC#32

/-- A program array with `w` where the address `p` is fetched: in place if `p` names a record, else as a one-record
program whose text starts at `p`. -/
def State.placeWord (s : State) (p : Word) (w : RecordWord) : State :=
  match s.textIndex p with
  | some i => { s with imem := updateAt (fun _ => w) s.imem i }
  | none => { s with imem := [w], cfg := { s.cfg with textBase := p } }

/-- Load a one-word program where the next sequential step fetches, and make that step the next one (assumption log 4):
the stored word, the pc aligned, the run running, the sequential driver. -/
def State.loadWord (s : State) (w : RecordWord) : State :=
  { s.placeWord s.alignedPc w with
    archPc := s.alignedPc
    outcome := .running
    driver := .sequential }

end Sys2Proof.Machine
end

