-- ==== Sys2Proof/WellFormed.lean ====
section
/-!
DEFINITION. Well-formedness: of an instruction (R80, D10) and of a configuration (R199).
-/

namespace Sys2Proof

/-- An instruction is well formed iff some legal word stands for it. The operand types admit every register number and
every 32-bit immediate; the one check left is `imm[31:5] = 0` of the two shifts (R75, R80). -/
def Instr.wf : Instr → Bool
  | .sll _ _ imm => decide (imm.toNat < 32)
  | .srl _ _ imm => decide (imm.toNat < 32)
  | _ => true

/-- `n` is a power of two. -/
def isPowerOfTwo (n : Nat) : Bool := n != 0 && 2 ^ n.log2 == n

/-- Every condition of a list holds. -/
def allHold (l : List Bool) : Bool := l.all (fun b => b)

/-- The conditions R199 puts on one cache. -/
def CacheConfig.valid (g : CacheConfig) : Bool :=
  allHold
    [isPowerOfTwo g.size, isPowerOfTwo g.block, isPowerOfTwo g.assoc, decide (4 ≤ g.block),
     decide (g.block * g.assoc ≤ g.size), decide (1 ≤ g.miss)]

/-- A valid configuration (R199). `FU_COUNT[FPU] ≥ 0` and `BP_H ≥ 0` hold of every natural number, and `BP_TYPE` is one
of the three by its type. -/
def Config.valid (c : Config) : Bool :=
  allHold
    [decide (1 ≤ c.fetchWidth), decide (1 ≤ c.issueWidth), decide (1 ≤ c.commitWidth), decide (1 ≤ c.cdbWidth),
     decide (1 ≤ c.fbCap), decide (1 ≤ c.robCap), decide (1 ≤ c.lsqCap), decide (1 ≤ c.maxCycles),
     decide (1 ≤ c.rsCap.alu), decide (1 ≤ c.rsCap.fpu), decide (1 ≤ c.rsCap.lsu),
     decide (1 ≤ c.fuCount.alu), decide (1 ≤ c.fuCount.lsu),
     decide (1 ≤ c.fuLat.alu), decide (1 ≤ c.fuLat.fpu), decide (1 ≤ c.fuLat.lsu),
     decide (1 ≤ c.bpEntries), decide (1 ≤ c.btbEntries), c.icache.valid, c.dcache.valid,
     decide (4 ≤ c.memSize), decide (c.memSize ≤ 2 ^ 32), decide (c.textBase.toNat % 4 = 0)]

end Sys2Proof
end

