-- ==== Sys2Proof/Machine/Driver.lean ====
section
/-!
DEFINITION. The cycle driver (R85 to R87) and the checks made before a run (R199, R200).
-/

namespace Sys2Proof.Machine

/-- `tick()`: commit, memory, execute, issue, decode, fetch, then `cycle` advances (R85). -/
def State.tick (s : State) : State :=
  let t := s.commitStage.memoryStage.executeStage.issueStage.decodeStage.fetchStage
  { t with cycle := t.cycle + 1 }

/-- The end test after a tick: at `MAX_CYCLES` a run that is still running ends `limit` (R87). -/
def State.limitCheck (s : State) : State :=
  if s.outcome = .running ∧ s.cycle = s.cfg.maxCycles then { s with outcome := .limit } else s

/-- One turn of `run_until_halt_or_limit` (R87). -/
def State.driverTick (s : State) : State := s.tick.limitCheck

/-- The instruction array is one the loader accepts: every word is legal (R80, R200) and it fits the address space. DESIGN
CHOICE (assumption log 31): R200 says that the loader supplies `TEXT_BASE + 4*N_INSTR ≤ 2^32`, and does not name a breach
among its refusals; the model refuses it with `programInvalid`. -/
def textLegal (textBase : Word) (imem : List RecordWord) : Bool :=
  imem.all (fun w => (decode? w).isSome) && decide (textBase.toNat + 4 * imem.length ≤ 2 ^ 32)

/-- Why no run starts in this state, if none does (R199, R200; assumption log 5). That an invalid configuration is named
before an invalid program, and that a text beyond the address space is refused, are DESIGN CHOICES (assumption log 27, 31).
-/
def State.startRefusal (s : State) : Option Refusal :=
  if s.cfg.valid = false then some .configInvalid
  else if textLegal s.cfg.textBase s.imem = false then some .programInvalid
  else none

/-- Refuse for a reason, if there is one; else `o`. -/
def refuseOr (r : Option Refusal) (o : Host.Outcome State Fault Refusal) : Host.Outcome State Fault Refusal :=
  match r with
  | some e => .refused e
  | none => o

end Sys2Proof.Machine
end

