-- ==== Sys2Proof/Machine/Step.lean ====
section
/-!
DEFINITION. One step: a tick of the pipeline driver (R85 to R87) or a sequential step (R98), as State's `driver` says.
-/

namespace Sys2Proof.Machine

/-- The sequential step: the instruction at `arch_pc` runs; where `arch_pc` names no record the run ends with
`FetchFault` (R98, R103). -/
def sequentialStep (s : State) : Host.Outcome State Fault Refusal :=
  match s.instrAt s.archPc with
  | some i => exec i s
  | none => .next (s.raiseSequential .fetchFault s.archPc)

/-- A step of a run that has not ended: one tick, or one sequential step, as the driver says. -/
def State.advance (s : State) : Host.Outcome State Fault Refusal :=
  match s.driver with
  | .pipeline => .next s.driverTick
  | .sequential => sequentialStep s

/-- One step of the machine. A state no run starts from is refused (R199, R200), a run that has ended takes no step
(R204). -/
def step (s : State) : Host.Outcome State Fault Refusal :=
  refuseOr s.startRefusal (if s.outcome = .running then s.advance else .fault .runEnded)

/-- `s` with the record word of `nbits` bits `w` loaded where the next step, a sequential one, fetches (assumption log
4). -/
def State.withFetchWord (s : State) (nbits w : Nat) : State := s.loadWord (BitVec.ofNat 64 (w % 2 ^ nbits))

end Sys2Proof.Machine
end

