-- ==== Sys2Proof/Machine/Loader.lean ====
section
/-!
DEFINITION. The loader contract (R200): the data directives as the loader applies them (R53, R84), the checks that refuse
a configuration or a program, and the reset state a run starts from (R202). Parsing assembly text and resolving labels are
outside the core (R7).
-/

namespace Sys2Proof.Machine

/-- A datum of the `.data` section (R84). -/
inductive DataItem where
  /-- `.word w1, w2, ...` -/
  | word (ws : List Word)
  /-- `.space n` -/
  | space (n : Nat)
  /-- `.asciiz "s"`, given as the bytes of `s` -/
  | asciiz (bytes : List Byte)
deriving DecidableEq, Repr

/-- What the loader supplies besides `TEXT_BASE`, which is in the configuration (R200). A field with a default may be left
out of a program; it then has the value the spec states for it. -/
structure Program where
  /-- the records, as canonical words -/
  text : List RecordWord
  /-- the `.data` section, in order -/
  data : List DataItem
  /-- `DATA_BASE`; default 0 (R200, D68) -/
  dataBase : Nat := 0
  /-- `ENTRY_PC`, if the loader gives one; default `TEXT_BASE` (R11, D35: see `Program.entry`) -/
  entryPc : Option Word := none
  /-- `INIT_REGS`; default all 0 (R11, D34) -/
  initRegs : Vector Word 32 := Vector.replicate 32 0
deriving DecidableEq, Repr

/-- `ENTRY_PC`: the loader's, or `TEXT_BASE` (R200, D35). -/
def Program.entry (p : Program) (c : Config) : Word := p.entryPc.getD c.textBase

/-- Where the loader places next, and the image so far. -/
structure Placement where
  next : Nat
  image : List Host.Cell
deriving DecidableEq, Repr

/-- Place bytes one after the other. -/
def placeBytes : List Byte → Placement → Placement
  | [], p => p
  | b :: bs, p => placeBytes bs ⟨p.next + 1, memSet p.image p.next b⟩

/-- Place words one after the other, in the configured byte order (R84). -/
def placeWords (o : ByteOrder) : List Word → Placement → Placement
  | [], p => p
  | w :: ws, p => placeWords o ws ⟨p.next + 4, memWriteWord o p.image p.next w⟩

/-- The next multiple of 4. -/
def alignUp4 (n : Nat) : Nat := (n + 3) / 4 * 4

/-- Place one datum (R84); a `.word` list starts at the next 4-byte-aligned address. -/
def placeItem (o : ByteOrder) (d : DataItem) (p : Placement) : Placement :=
  match d with
  | .word [] => p
  | .word (w :: ws) => placeWords o (w :: ws) { p with next := alignUp4 p.next }
  | .space n => placeBytes (List.replicate n 0) p
  | .asciiz bytes => placeBytes (bytes ++ [0]) p

/-- Place the data section. -/
def placeItems (o : ByteOrder) : List DataItem → Placement → Placement
  | [], p => p
  | d :: ds, p => placeItems o ds (placeItem o d p)

/-- The placement of a program's data, from `DATA_BASE` (R200). -/
def Program.placement (p : Program) (o : ByteOrder) : Placement := placeItems o p.data ⟨p.dataBase, []⟩

/-- Does the data fit below `MEM_SIZE` (R200)? A program without data fits. -/
def Program.dataFits (p : Program) (c : Config) : Bool :=
  (p.placement c.byteOrder).next == p.dataBase || decide ((p.placement c.byteOrder).next ≤ c.memSize)

/-- The checks on `ENTRY_PC` (R200; spec/93 item 4): aligned, and inside the text when there is one. -/
def Program.entryOk (p : Program) (c : Config) : Bool :=
  decide ((p.entry c).toNat % 4 = 0)
    && (p.text.isEmpty
      || (decide (c.textBase.toNat ≤ (p.entry c).toNat)
        && decide ((p.entry c).toNat < c.textBase.toNat + 4 * p.text.length)))

/-- A program the loader accepts (R200). -/
def Program.valid (p : Program) (c : Config) : Bool :=
  textLegal c.textBase p.text && p.dataFits c && p.entryOk c && (p.initRegs[0] == 0)

/-- A configuration and a program are refused, or give the reset state (R199, R200, R202). DESIGN CHOICE (assumption log
27): when both are invalid the refusal is `configInvalid`; R199 and R200 do not order their refusals. -/
def State.load (c : Config) (p : Program) : Host.Outcome State Fault Refusal :=
  if c.valid = false then .refused .configInvalid
  else if p.valid c = false then .refused .programInvalid
  else .next (State.resetWith c p.text (p.placement c.byteOrder).image (p.entry c) p.initRegs)

end Sys2Proof.Machine
end

