-- ==== Sys2Proof/Machine/Results.lean ====
section
/-!
DEFINITION. The results surface (R100, R101), the observation of a run (R204), and the derived `status` of an in-flight
record (R42).
-/

namespace Sys2Proof.Machine

/-- The results record (R100). -/
structure Results where
  cycles : Nat
  instructionsCommitted : Nat
  ipc : Rat
  branchPredictions : Nat
  branchMispredictions : Nat
  branchAccuracy : Rat
  icacheAccesses : Nat
  icacheHits : Nat
  dcacheAccesses : Nat
  dcacheHits : Nat
  stallRobFull : Nat
  stallRsFull : Nat
  stallLsqFull : Nat
  stallIcacheMiss : Nat
  stallDcacheMiss : Nat
  stallRawHazard : Nat
  utilization : PerClass (List Rat)
deriving DecidableEq, Repr

/-- `branch_accuracy`: 1 by convention when there was no branch (R100, R210). -/
def branchAccuracy (predictions mispredictions : Nat) : Rat :=
  if predictions = 0 then 1 else ((predictions : Rat) - (mispredictions : Rat)) / (predictions : Rat)

/-- The results record of a state (R100), emitted at the end of a run. -/
def State.results (s : State) : Results where
  cycles := s.cycle
  instructionsCommitted := s.metrics.instructionsCommitted
  ipc := (s.metrics.instructionsCommitted : Rat) / (s.cycle : Rat)
  branchPredictions := s.metrics.branchPredictions
  branchMispredictions := s.metrics.branchMispredictions
  branchAccuracy := branchAccuracy s.metrics.branchPredictions s.metrics.branchMispredictions
  icacheAccesses := s.metrics.icacheAccesses
  icacheHits := s.metrics.icacheHits
  dcacheAccesses := s.metrics.dcacheAccesses
  dcacheHits := s.metrics.dcacheHits
  stallRobFull := s.metrics.stallRobFull
  stallRsFull := s.metrics.stallRsFull
  stallLsqFull := s.metrics.stallLsqFull
  stallIcacheMiss := s.metrics.stallIcacheMiss
  stallDcacheMiss := s.metrics.stallDcacheMiss
  stallRawHazard := s.metrics.stallRawHazard
  utilization := s.metrics.fuBusy.map (fun l => l.map (fun n => (n : Rat) / (s.cycle : Rat)))

/-- The observation of a run (R204): outcome, registers, pc, memory, results record. -/
structure Observation where
  outcome : RunOutcome
  regs : List Word
  archPc : Word
  mem : List Host.Cell
  results : Results
deriving DecidableEq, Repr

/-- What the host reads at the end of a run (R203, R204). -/
def State.observe (s : State) : Observation where
  outcome := s.outcome
  regs := (List.range 32).map (fun i => s.reg (BitVec.ofNat 5 i))
  archPc := s.archPc
  mem := s.mem
  results := s.results

/-- The `status` values an in-flight record can have (R42). -/
inductive Status where
  | issued | waiting | executing | completed
deriving DecidableEq, Repr

/-- Is a record of ROB entry `t` in the decode latch? -/
def State.inLatch (s : State) (t : Nat) : Bool := s.dl.any (fun d => d.rob == t)

/-- Is a record of ROB entry `t` in a reservation station? -/
def State.inStation (s : State) (t : Nat) : Bool :=
  [s.rs.alu, s.rs.fpu, s.rs.lsu].any (fun l => l.any (fun e => e.valid && e.rob == t))

/-- The `status` of the record that owns ROB entry `t`, from where it is (R42). DESIGN CHOICE (assumption log 22): the place
in the latch is asked first, so that a `nop`, `syscall`, `halt` or fetch fault record in `DL`, whose ROB entry is completed
at decode (R91) and to which R42 thus gives both `issued` and `completed`, is `issued`; and an ALU or FPU result that waits
for the bus, for which R42 names no status, is `executing`. -/
def State.statusOf (s : State) (t : Nat) : Option Status :=
  if (s.robAt t).valid = false then none
  else if s.inLatch t then some .issued
  else if s.inStation t then some .waiting
  else if (s.robAt t).completed then some .completed
  else some .executing

end Sys2Proof.Machine
end

