-- ==== Sys2Proof/Safety.lean ====
section
/-!
DEFINITION. The terms the statements are written in: what a sequential step changes and leaves alone, the invariants of
the engine, the architectural state, and runs.
-/

namespace Sys2Proof.Machine

/-! ### Frames of a sequential step -/

/-- Everything but register values, memory, `arch_pc`, `outcome`, `seq_next` and the committed count is as before: the
configuration, the instruction array, the rename map, every structure of the pipeline, the caches, the predictor, `cycle`
and every other counter. -/
structure SameEngine (s t : State) : Prop where
  cfg : t.cfg = s.cfg
  imem : t.imem = s.imem
  renameReady : ∀ i, (t.regEntry i).ready = (s.regEntry i).ready
  renameTag : ∀ i, (t.regEntry i).tag = (s.regEntry i).tag
  rob : t.rob = s.rob
  robHead : t.robHead = s.robHead
  robTail : t.robTail = s.robTail
  robCount : t.robCount = s.robCount
  rs : t.rs = s.rs
  fu : t.fu = s.fu
  cdbq : t.cdbq = s.cdbq
  lsq : t.lsq = s.lsq
  mport : t.mport = s.mport
  fb : t.fb = s.fb
  dl : t.dl = s.dl
  cycle : t.cycle = s.cycle
  metrics : ∃ n, t.metrics = { s.metrics with instructionsCommitted := n }
  fetch : t.fetch = s.fetch
  pred : t.pred = s.pred
  icache : t.icache = s.icache
  dcache : t.dcache = s.dcache
  driver : t.driver = s.driver

/-- A sequential step that completes: the pc is `next`, the instruction is counted and numbered, the outcome is `out`. -/
structure Completed (s t : State) (next : Word) (out : RunOutcome) : Prop where
  pc : t.archPc = next
  outcome : t.outcome = out
  counted : t.metrics.instructionsCommitted = s.metrics.instructionsCommitted + 1
  numbered : t.seqNext = s.seqNext + 1
  engine : SameEngine s t

/-- A completed step that writes `v` to `rd` (nothing when `rd` is register 0) and stores nothing. -/
structure RegisterStep (s t : State) (rd : Reg) (v next : Word) : Prop where
  regs : ∀ r, t.reg r = if r = rd ∧ rd ≠ 0 then v else s.reg r
  bytes : ∀ a, t.readByte a = s.readByte a
  done : Completed s t next s.outcome

/-- A completed step that writes no register and stores nothing, and leaves the outcome `out`. -/
structure PlainStep (s t : State) (next : Word) (out : RunOutcome) : Prop where
  regs : ∀ r, t.reg r = s.reg r
  bytes : ∀ a, t.readByte a = s.readByte a
  done : Completed s t next out

/-- A completed step that writes no register and stores the word `v` at `ea`: the byte at `ea + k` is the word's byte
that the byte order puts there (R52), every other byte is as before. -/
structure StoreStep (s t : State) (ea v next : Word) : Prop where
  regs : ∀ r, t.reg r = s.reg r
  stored : ∀ k, k < 4 → t.readByte (ea.toNat + k) =
    v.extractLsb' (8 * (match s.cfg.byteOrder with | .little => k | .big => 3 - k)) 8
  others : ∀ a, (∀ k, k < 4 → a ≠ ea.toNat + k) → t.readByte a = s.readByte a
  done : Completed s t next s.outcome

/-- A step that raises `c` with address `addr`: the run ends faulted at `arch_pc`, and nothing else changes (R98, R145). -/
structure FaultStep (s t : State) (c : Cause) (addr : Word) : Prop where
  outcome : t.outcome = .faulted c s.archPc s.seqNext addr
  regs : ∀ r, t.reg r = s.reg r
  bytes : ∀ a, t.readByte a = s.readByte a
  pc : t.archPc = s.archPc
  notCounted : t.metrics = s.metrics
  notNumbered : t.seqNext = s.seqNext
  engine : SameEngine s t

/-! ### Architectural state -/

/-- The architectural state of R24 is the same: registers, memory, `arch_pc`. -/
structure SameArch (s t : State) : Prop where
  regs : ∀ r, t.reg r = s.reg r
  bytes : ∀ a, t.readByte a = s.readByte a
  pc : t.archPc = s.archPc

/-! ### Loading -/

/-- The address after a data section placed from `at`: `.word` data starts at the next multiple of 4, `.asciiz` has one
byte more than its text (R84). -/
def dataEnd : Nat → List DataItem → Nat
  | start, [] => start
  | start, .word [] :: ds => dataEnd start ds
  | start, .word (w :: ws) :: ds => dataEnd (alignUp4 start + 4 * (w :: ws).length) ds
  | start, .space n :: ds => dataEnd (start + n) ds
  | start, .asciiz bs :: ds => dataEnd (start + bs.length + 1) ds

/-- What memory holds of a datum whose place starts at `start` (R84): its bytes, and 0 in the bytes passed over before an
aligned `.word` list (R51). -/
def DatumAt (s : State) (start : Nat) : DataItem → Prop
  | .word [] => True
  | .word (w :: ws) =>
    (∀ k v, (w :: ws)[k]? = some v → memReadWord s.cfg.byteOrder s.mem (alignUp4 start + 4 * k) = v) ∧
    (∀ a, start ≤ a → a < alignUp4 start → s.readByte a = 0)
  | .space n => ∀ k, k < n → s.readByte (start + k) = 0
  | .asciiz bs => (∀ k b, bs[k]? = some b → s.readByte (start + k) = b) ∧ s.readByte (start + bs.length) = 0

/-- What R199 asks of one cache: three powers of two, a block of at least a word, at least one set, a miss penalty. -/
structure ValidCache (g : CacheConfig) : Prop where
  size : ∃ k, g.size = 2 ^ k
  block : ∃ k, g.block = 2 ^ k
  assoc : ∃ k, g.assoc = 2 ^ k
  blockHoldsWord : 4 ≤ g.block
  hasSet : g.block * g.assoc ≤ g.size
  miss : 1 ≤ g.miss

/-- What R199 asks of a configuration. Its conditions on `BP_TYPE`, `BP_H` and `FU_COUNT[FPU]` hold by their types. -/
structure ValidConfig (c : Config) : Prop where
  fetchWidth : 1 ≤ c.fetchWidth
  issueWidth : 1 ≤ c.issueWidth
  commitWidth : 1 ≤ c.commitWidth
  cdbWidth : 1 ≤ c.cdbWidth
  fbCap : 1 ≤ c.fbCap
  robCap : 1 ≤ c.robCap
  lsqCap : 1 ≤ c.lsqCap
  maxCycles : 1 ≤ c.maxCycles
  rsCap : ∀ k, 1 ≤ c.rsCap.get k
  aluCount : 1 ≤ c.fuCount.alu
  lsuCount : 1 ≤ c.fuCount.lsu
  fuLat : ∀ k, 1 ≤ c.fuLat.get k
  bpEntries : 1 ≤ c.bpEntries
  btbEntries : 1 ≤ c.btbEntries
  icache : ValidCache c.icache
  dcache : ValidCache c.dcache
  memHoldsWord : 4 ≤ c.memSize
  memFits : c.memSize ≤ 2 ^ 32
  textAligned : c.textBase.toNat % 4 = 0

/-- What R200 asks of a program: legal records that fit the address space, no data at or beyond `MEM_SIZE` (a program
that places no byte has none: assumption log 18; that a text which does not fit is refused is the model's choice: assumption
log 31), an aligned entry pc, inside the text if there is any, and register 0 initially 0. -/
structure Loadable (c : Config) (p : Program) : Prop where
  legal : ∀ w, w ∈ p.text → ∃ i, decode w = .ok i
  textFits : c.textBase.toNat + 4 * p.text.length ≤ 2 ^ 32
  dataFits : dataEnd p.dataBase p.data ≤ c.memSize ∨ dataEnd p.dataBase p.data = p.dataBase
  entryAligned : (p.entry c).toNat % 4 = 0
  entryInside : p.text ≠ [] →
    c.textBase.toNat ≤ (p.entry c).toNat ∧ (p.entry c).toNat < c.textBase.toNat + 4 * p.text.length
  zeroRegister : p.initRegs[0] = 0

/-- What reset makes of every structure of the engine that R202 gives a value for, whatever the configuration and the
program: queues and tables empty, counters 0, the pattern table weakly not taken. -/
structure AsReset (s : State) : Prop where
  rename : ∀ r, (s.regEntry r).ready = true ∧ (s.regEntry r).tag = 0
  robPointers : s.robHead = 0 ∧ s.robTail = 0 ∧ s.robCount = 0
  rob : ∀ e, e ∈ s.rob → e.valid = false
  rs : ∀ k e, e ∈ s.rs.get k → e.valid = false
  fu : ∀ k u, u ∈ s.fu.get k → u.busy = false
  queues : s.cdbq = [] ∧ s.lsq = [] ∧ s.fb = [] ∧ s.dl = []
  mport : s.mport.busy = false
  seqNext : s.seqNext = 0
  cycle : s.cycle = 0
  outcome : s.outcome = .running
  fetch : s.fetch.stall = 0 ∧ s.fetch.stallCause = .icacheMiss ∧ s.fetch.blocked = false
  pht : ∀ v, v ∈ s.pred.pht → v = 1#2
  history : s.pred.ghr = 0 ∧ s.pred.btbStamp = 0
  btb : ∀ e, e ∈ s.pred.btb → e.valid = false ∧ e.lru = 0
  caches : ∀ c, c ∈ [s.icache, s.dcache] → c.stamp = 0 ∧
    ∀ ways, ways ∈ c.sets → ∀ l, l ∈ ways → l.valid = false ∧ l.dirty = false ∧ l.lru = 0
  metrics : s.metrics =
    { instructionsCommitted := 0, branchPredictions := 0, branchMispredictions := 0
      icacheAccesses := 0, icacheHits := 0, dcacheAccesses := 0, dcacheHits := 0
      stallRobFull := 0, stallRsFull := 0, stallLsqFull := 0, stallIcacheMiss := 0, stallDcacheMiss := 0
      stallRawHazard := 0
      fuBusy := ⟨List.replicate s.cfg.fuCount.alu 0, List.replicate s.cfg.fuCount.fpu 0,
        List.replicate s.cfg.fuCount.lsu 0⟩ }

/-! ### Several entries of one tick -/

/-- The state after the entries `l` have been committed, one after the other (R140, R143). -/
def State.commitAll (s : State) (l : List RobEntry) : State := l.foldl State.commitOne s

/-- The state after the records `l` have left the head of `FB` and been allocated, one after the other (R90, R91). -/
def State.decodeAll (s : State) (l : List FetchRec) : State :=
  l.foldl (fun t f => State.allocate { t with fb := t.fb.tail } f) s

/-- The I-cache after it has been read for the records `l`, one after the other; a fetch fault record reads nothing (R103,
R104). -/
def State.icacheAfter (s : State) (l : List FetchRec) : Cache :=
  l.foldl (fun c f => if f.body.isSome then (cacheAccess s.cfg.icache false c f.pc.toNat).2 else c) s.icache

/-- The predictor after the records `l` have been fetched, one after the other: each is predicted, and gshare's history takes
its prediction in (R107 to R109). A fetch fault record is not predicted (R103). -/
def State.predAfter (s : State) (l : List FetchRec) : Predictor :=
  l.foldl (fun p f => match f.body with
    | some r => historyAtFetch s.cfg (predict s.cfg p r f.pc).2 r f.predTaken
    | none => p) s.pred

/-! ### Single structures -/

/-- A load entry behind the entries `older` may start (R130, R131): its address is resolved without a fault, every older
store's address is resolved, and no older store that has not faulted overlaps it partly. -/
structure MayStart (older : List LsqEntry) (l : LsqEntry) : Prop where
  load : l.kind = .load
  ready : l.lstate = .ready
  resolved : ∀ st, st ∈ older → st.kind = .store → st.addrOk = true
  apart : ∀ st, st ∈ older → st.kind = .store → st.fault = none →
    st.addr = l.addr ∨ st.addr.toNat + 4 ≤ l.addr.toNat ∨ l.addr.toNat + 4 ≤ st.addr.toNat

/-- Line `y` of set `x` of a cache, if there is one. -/
def Cache.lineAt (c : Cache) (x y : Nat) : Option CacheLine := (c.sets[x]?).bind (·[y]?)

/-! ### Runs -/

/-- `n` ticks of the pipeline from `s`, without the end test. -/
def ticks : Nat → State → State
  | 0, s => s
  | n + 1, s => ticks n s.tick

/-- The run is safe so far: it has not ended with a fault. -/
def State.notFaulted (s : State) : Bool :=
  match s.outcome with
  | .faulted _ _ _ _ => false
  | .running | .halted | .limit => true

/-- The same state under the sequential driver. -/
def State.sequentially (s : State) : State := { s with driver := .sequential }

/-! ### Invariants of the engine -/

/-- Is ROB position `t` inside the ring's window from head, `robCount` long (R32)? -/
def State.inWindow (s : State) (t : Nat) : Prop :=
  (t + s.cfg.robCap - s.robHead) % s.cfg.robCap < s.robCount

/-- The ROB is a ring (R32, R150): the table has `ROB_CAP` entries, the pointers are in range, the tail is `rob_count`
behind the head, and exactly the entries of the window are valid. -/
structure RobRing (s : State) : Prop where
  size : s.rob.length = s.cfg.robCap
  head : s.robHead < s.cfg.robCap
  count : s.robCount ≤ s.cfg.robCap
  tail : s.robTail = (s.robHead + s.robCount) % s.cfg.robCap
  valid : ∀ t, t < s.cfg.robCap → ((s.robAt t).valid = true ↔ s.inWindow t)

/-- The rename-map invariant of R30: a register that is not ready names a valid ROB entry whose destination it is. -/
def RenameSound (s : State) : Prop :=
  ∀ i, (s.regEntry i).ready = false →
    (s.regEntry i).tag < s.cfg.robCap ∧ (s.robAt (s.regEntry i).tag).valid = true
      ∧ (s.robAt (s.regEntry i).tag).dest = some i

/-- Position `k` of the window, counted from the head. -/
def State.windowEntry (s : State) (k : Nat) : RobEntry := s.robAt ((s.robHead + k) % s.cfg.robCap)

/-- Program order in the ROB (R97, R140): sequence numbers rise from head to tail and are below `seq_next`. -/
structure RobOrdered (s : State) : Prop where
  rising : ∀ j k, j < k → k < s.robCount → (s.windowEntry j).seq < (s.windowEntry k).seq
  below : ∀ k, k < s.robCount → (s.windowEntry k).seq < s.seqNext

/-- Register 0 holds 0 and is ready (R26). -/
def ZeroHeld (s : State) : Prop := (s.regEntry 0).value = 0 ∧ (s.regEntry 0).ready = true

/-- A cache has its shape (R48): `SETS` sets of `ASSOC` lines. -/
structure CacheShape (g : CacheConfig) (c : Cache) : Prop where
  sets : c.sets.length = g.sets
  ways : ∀ ways, ways ∈ c.sets → ways.length = g.assoc

/-- No queue is over its capacity, and the tables have their sizes: the ROB, the stations, the units and their busy counts,
the predictor's tables and the caches (R32, R34, R35, R37, R39, R40, R45, R47, R48). -/
structure WithinCapacity (s : State) : Prop where
  fb : s.fb.length ≤ s.cfg.fbCap
  lsq : s.lsq.length ≤ s.cfg.lsqCap
  dl : s.dl.length ≤ s.cfg.issueWidth
  rob : s.rob.length = s.cfg.robCap
  rs : ∀ k, (s.rs.get k).length = s.cfg.rsCap.get k
  fu : ∀ k, (s.fu.get k).length = s.cfg.fuCount.get k
  fuBusy : ∀ k, (s.metrics.fuBusy.get k).length = s.cfg.fuCount.get k
  pht : s.pred.pht.length = s.cfg.bpEntries
  btb : s.pred.btb.length = s.cfg.btbEntries
  icache : CacheShape s.cfg.icache s.icache
  dcache : CacheShape s.cfg.dcache s.dcache

/-- Every history value fits `BP_H` bits (R33, R47, R109). -/
structure HistoryFits (s : State) : Prop where
  ghr : s.pred.ghr < 2 ^ s.cfg.bpHistory
  fb : ∀ f, f ∈ s.fb → f.ghrSnap < 2 ^ s.cfg.bpHistory
  rob : ∀ t, (s.robAt t).ghrSnap < 2 ^ s.cfg.bpHistory

/-- Decoded records of class `k` waiting in the latch. -/
def State.latched (s : State) (k : FuClass) : Nat := s.dl.countP (fun d => bodyClass d.fetched.body == some k)

/-- There is room for the record `f` at decode (R90): a free ROB entry, a station entry of its class that no valid entry
and no latched record has taken, and for a load or a store a free LSQ entry. -/
structure DecodeRoom (s : State) (f : FetchRec) : Prop where
  rob : s.robCount < s.cfg.robCap
  station : ∀ r k, f.body = some r → opClass r.op = some k → countValid (s.rs.get k) + s.latched k < s.cfg.rsCap.get k
  queue : ∀ r, f.body = some r → r.op = .lw ∨ r.op = .sw → s.lsq.length < s.cfg.lsqCap

/-- Every record in the decode latch has a reservation-station entry reserved for it (R90, R94). -/
structure LatchReserved (s : State) : Prop where
  width : s.dl.length ≤ s.cfg.issueWidth
  size : ∀ k, (s.rs.get k).length = s.cfg.rsCap.get k
  room : ∀ k, countValid (s.rs.get k) + s.latched k ≤ s.cfg.rsCap.get k

/-- No cache counts more hits than accesses, so `misses = accesses - hits` is a count (R69). -/
def CacheCountsSound (s : State) : Prop :=
  s.metrics.icacheHits ≤ s.metrics.icacheAccesses ∧ s.metrics.dcacheHits ≤ s.metrics.dcacheAccesses

/-- No unit is busy for more ticks than its latency (R119): a busy unit has between 1 and `FU_LAT[K]` ticks left. -/
def UnitsWithinLatency (s : State) : Prop :=
  ∀ k u, u ∈ s.fu.get k → u.busy = true → 1 ≤ u.remaining ∧ u.remaining ≤ s.cfg.fuLat.get k

end Sys2Proof.Machine
end

