-- ==== Sys2Proof/Certificates/Slice0/Obligations.lean ====
section
/-!
DEFINITION. The statements for the provers. OBLIGATIONS.json lists them with the rules of spec/ they formalise.
-/

open Sys2Proof Sys2Proof.Machine

/-! ## Encoding -/

/-- R73, R74, R79: decoding the word of a well-formed instruction gives it back. -/
def Obligations.DecodeOfEncode : Prop :=
  ∀ i : Instr, i.wf = true → decode (encode i) = .ok i

/-- R79, R80: a word that decodes is the canonical word of a well-formed instruction, so no bit of a legal word is
dropped and each instruction has one word. -/
def Obligations.EncodeOfDecode : Prop :=
  ∀ (w : RecordWord) (i : Instr), decode w = .ok i → i.wf = true ∧ encode i = w

/-- Words of spec/95 section 2.1 decode to the instructions it lists. -/
def Obligations.SpecWordsDecode : Prop :=
  decode 0x0B40000000000001#64 = .ok (.li 8 1) ∧
  decode 0x024A000000000001#64 = .ok (.addi 9 8 1) ∧
  decode 0x0180800000000000#64 = .ok (.add 16 2 0) ∧
  decode 0x0862000000000004#64 = .ok (.sll 12 8 4) ∧
  decode 0x0E07500000000000#64 = .ok (.sw 29 8 0) ∧
  decode 0x0F02000000400010#64 = .ok (.beq 8 0 0x00400010) ∧
  decode 0x16F8000000400010#64 = .ok (.jal 0x00400010) ∧
  decode 0x1707C00000000000#64 = .ok (.jr 31) ∧
  decode 0x1900000000000000#64 = .ok .syscall ∧
  decode 0x0000000000000000#64 = .error .unknownOpcode ∧
  decode 0x1600000000400010#64 = .error .nonZeroUnusedField

/-- R80: exactly which words are illegal, by which name they are rejected, and that a program that holds one is
refused. -/
def Obligations.IllegalWordsRejected : Prop :=
  (∀ (c : Config) (p : Program) (w : RecordWord) (e : DecodeError), c.valid = true → w ∈ p.text →
    decode w = .error e → State.load c p = .refused .programInvalid) ∧
  ∀ w : RecordWord,
    (decode w = .error .unknownOpcode ↔ (wordOp w).toNat = 0 ∨ 0x1B ≤ (wordOp w).toNat) ∧
    (∀ op, Opcode.ofNumber? (wordOp w) = some op →
      (decode w = .error .nonZeroUnusedField ↔
        w.extractLsb' 32 9 ≠ 0 ∨
        (writesRd op = false ∧ wordRd w ≠ 0) ∨
        (readsRs1 op = false ∧ wordRs1 w ≠ 0) ∨
        (readsRs2 op = false ∧ wordRs2 w ≠ 0) ∨
        (op ∈ [Opcode.add, .sub, .mul, .and, .or, .xor, .slt, .jr, .nop, .syscall, .halt] ∧ wordImm w ≠ 0) ∨
        (op ∈ [Opcode.sll, .srl] ∧ 32 ≤ (wordImm w).toNat) ∨
        (op = .jal ∧ wordRd w ≠ 31)))

/-! ## The step -/

/-- R98: where `arch_pc` names the word of an instruction, the sequential step is `exec` of that instruction, whole;
it adds nothing around it. Which relation a step takes is the model's field `driver` (assumption log 1). -/
def Obligations.SequentialStepRunsInstruction : Prop :=
  ∀ (s : State) (k : Nat) (i : Instr),
    s.startRefusal = none → s.outcome = .running → s.driver = .sequential →
    k < s.imem.length → s.archPc = s.cfg.textBase + BitVec.ofNat 32 (4 * k) →
    decode (s.imem.getD k 0) = .ok i →
    step s = exec i s

/-- R98, R103: a sequential step at a pc that is misaligned or outside the text ends the run with `FetchFault`. The
count and the number of a sequential step, and the `seq` of its fault, are the model's choice (assumption log 9). -/
def Obligations.SequentialFetchFault : Prop :=
  ∀ s : State,
    s.startRefusal = none → s.outcome = .running → s.driver = .sequential →
    (s.archPc.toNat % 4 ≠ 0 ∨ s.archPc.toNat < s.cfg.textBase.toNat
      ∨ s.cfg.textBase.toNat + 4 * s.imem.length ≤ s.archPc.toNat) →
    ∃ t, step s = .next t ∧ FaultStep s t .fetchFault s.archPc

/-- R85 to R87: a tick is the stages commit, memory, execute, issue, decode, fetch, in this order, each on what the one
before it leaves, and one more cycle. A step of the pipeline driver is one tick; it ends a run that is still running at
`MAX_CYCLES` with `limit`. -/
def Obligations.PipelineStepIsOneTick : Prop :=
  (∀ s : State, s.tick =
    { s.commitStage.memoryStage.executeStage.issueStage.decodeStage.fetchStage with cycle := s.cycle + 1 }) ∧
  ∀ s : State, s.startRefusal = none → s.outcome = .running → s.driver = .pipeline →
    ∃ t, step s = .next t ∧ t.cycle = s.cycle + 1 ∧
      (s.tick.outcome = .running → s.cycle + 1 = s.cfg.maxCycles → t = { s.tick with outcome := .limit }) ∧
      (s.tick.outcome ≠ .running ∨ s.cycle + 1 ≠ s.cfg.maxCycles → t = s.tick)

/-- R199, R200, R204: a configuration or an instruction array no run starts from is refused by name, and a run that
has ended takes no step. That `step` makes these checks is the model's reading, and that an invalid configuration is
named first is its choice (assumption log 5, 6, 27). -/
def Obligations.StepStopsByName : Prop :=
  (∀ s : State, s.cfg.valid = false → step s = .refused .configInvalid) ∧
  (∀ s : State, s.cfg.valid = true → (∃ w, w ∈ s.imem ∧ ∃ e, decode w = .error e) →
    step s = .refused .programInvalid) ∧
  (∀ s : State, s.startRefusal = none → s.outcome ≠ .running → step s = .fault .runEnded)

/-! ## Integer arithmetic, logic and constants (sequential) -/

/-- R152 to R155: `add`, `addi`, `sub` complete when overflow does not trap or the exact signed result fits, and
write the result modulo 2^32. The count and the number of a sequential step, and the `seq` of its fault, are the
model's choice (assumption log 9). -/
def Obligations.AddAddiSubComplete : Prop :=
  ∀ (s : State) (rd rs1 rs2 : Reg) (imm : Word),
    (s.cfg.overflowTraps = false ∨
        (-2 ^ 31 ≤ (s.reg rs1).toInt + (s.reg rs2).toInt ∧ (s.reg rs1).toInt + (s.reg rs2).toInt ≤ 2 ^ 31 - 1) →
      ∃ t, exec (.add rd rs1 rs2) s = .next t ∧ RegisterStep s t rd (s.reg rs1 + s.reg rs2) (s.archPc + 4)) ∧
    (s.cfg.overflowTraps = false ∨
        (-2 ^ 31 ≤ (s.reg rs1).toInt + imm.toInt ∧ (s.reg rs1).toInt + imm.toInt ≤ 2 ^ 31 - 1) →
      ∃ t, exec (.addi rd rs1 imm) s = .next t ∧ RegisterStep s t rd (s.reg rs1 + imm) (s.archPc + 4)) ∧
    (s.cfg.overflowTraps = false ∨
        (-2 ^ 31 ≤ (s.reg rs1).toInt - (s.reg rs2).toInt ∧ (s.reg rs1).toInt - (s.reg rs2).toInt ≤ 2 ^ 31 - 1) →
      ∃ t, exec (.sub rd rs1 rs2) s = .next t ∧ RegisterStep s t rd (s.reg rs1 - s.reg rs2) (s.archPc + 4))

/-- R152 to R155, R145: with overflow trapping, an exact result below -2^31 or above 2^31 - 1 raises
`ArithmeticOverflow` with address 0 and changes nothing else, whatever the destination. The count and the number of
a sequential step, and the `seq` of its fault, are the model's choice (assumption log 9). -/
def Obligations.AddAddiSubOverflow : Prop :=
  ∀ (s : State) (rd rs1 rs2 : Reg) (imm : Word), s.cfg.overflowTraps = true →
    ((s.reg rs1).toInt + (s.reg rs2).toInt < -2 ^ 31 ∨ 2 ^ 31 - 1 < (s.reg rs1).toInt + (s.reg rs2).toInt →
      ∃ t, exec (.add rd rs1 rs2) s = .next t ∧ FaultStep s t .arithmeticOverflow 0) ∧
    ((s.reg rs1).toInt + imm.toInt < -2 ^ 31 ∨ 2 ^ 31 - 1 < (s.reg rs1).toInt + imm.toInt →
      ∃ t, exec (.addi rd rs1 imm) s = .next t ∧ FaultStep s t .arithmeticOverflow 0) ∧
    ((s.reg rs1).toInt - (s.reg rs2).toInt < -2 ^ 31 ∨ 2 ^ 31 - 1 < (s.reg rs1).toInt - (s.reg rs2).toInt →
      ∃ t, exec (.sub rd rs1 rs2) s = .next t ∧ FaultStep s t .arithmeticOverflow 0)

/-- R156 to R159, R162: `mul` writes the low 32 bits of the product, signed or unsigned alike, `and`, `or`, `xor`
act bit by bit, `slt` compares signed; none of them ever faults. The count and the number of a sequential step, and
the `seq` of its fault, are the model's choice (assumption log 9). -/
def Obligations.MulLogicSltComplete : Prop :=
  ∀ (s : State) (rd rs1 rs2 : Reg),
    (∃ t, exec (.mul rd rs1 rs2) s = .next t ∧
      RegisterStep s t rd (BitVec.ofInt 32 ((s.reg rs1).toInt * (s.reg rs2).toInt)) (s.archPc + 4) ∧
      RegisterStep s t rd (BitVec.ofNat 32 ((s.reg rs1).toNat * (s.reg rs2).toNat)) (s.archPc + 4)) ∧
    (∃ t, exec (.and rd rs1 rs2) s = .next t ∧ RegisterStep s t rd (s.reg rs1 &&& s.reg rs2) (s.archPc + 4)) ∧
    (∃ t, exec (.or rd rs1 rs2) s = .next t ∧ RegisterStep s t rd (s.reg rs1 ||| s.reg rs2) (s.archPc + 4)) ∧
    (∃ t, exec (.xor rd rs1 rs2) s = .next t ∧ RegisterStep s t rd (s.reg rs1 ^^^ s.reg rs2) (s.archPc + 4)) ∧
    (∃ t, exec (.slt rd rs1 rs2) s = .next t ∧
      RegisterStep s t rd (if (s.reg rs1).slt (s.reg rs2) then 1 else 0) (s.archPc + 4))

/-- R160, R161, R163, R164: `sll` and `srl` shift by `imm[4:0]`, filling with zeros; `li` and `la` write the 32-bit
immediate. The count and the number of a sequential step, and the `seq` of its fault, are the model's choice
(assumption log 9). -/
def Obligations.ShiftsAndConstantsComplete : Prop :=
  ∀ (s : State) (rd rs1 : Reg) (imm : Word),
    (∃ t, exec (.sll rd rs1 imm) s = .next t ∧
      RegisterStep s t rd (s.reg rs1 <<< (imm.toNat % 32)) (s.archPc + 4)) ∧
    (∃ t, exec (.srl rd rs1 imm) s = .next t ∧
      RegisterStep s t rd (s.reg rs1 >>> (imm.toNat % 32)) (s.archPc + 4)) ∧
    (∃ t, exec (.li rd imm) s = .next t ∧ RegisterStep s t rd imm (s.archPc + 4)) ∧
    (∃ t, exec (.la rd imm) s = .next t ∧ RegisterStep s t rd imm (s.archPc + 4))

/-! ## Loads and stores (sequential) -/

/-- R165, R166, R52: `lw` at an aligned address inside memory writes the word of the four bytes there, in the
configured byte order. The count and the number of a sequential step, and the `seq` of its fault, are the model's
choice (assumption log 9). -/
def Obligations.LwCompletes : Prop :=
  ∀ (s : State) (rd rs1 : Reg) (imm : Word),
    (s.reg rs1 + imm).toNat % 4 = 0 → (s.reg rs1 + imm).toNat + 4 ≤ s.cfg.memSize →
    ∃ t, exec (.lw rd rs1 imm) s = .next t ∧
      RegisterStep s t rd
        (let ea := (s.reg rs1 + imm).toNat
         match s.cfg.byteOrder with
         | .little => s.readByte (ea + 3) ++ s.readByte (ea + 2) ++ s.readByte (ea + 1) ++ s.readByte ea
         | .big => s.readByte ea ++ s.readByte (ea + 1) ++ s.readByte (ea + 2) ++ s.readByte (ea + 3))
        (s.archPc + 4)

/-- R165, R167, R52: `sw` at an aligned address inside memory stores the four bytes of the word at the effective
address, which is the wrapping sum of base and displacement, in the configured byte order, and changes no other
byte. (The memory's canonical form is itself kept: see `MemoryStaysCanonical`.) The count and the number of a
sequential step, and the `seq` of its fault, are the model's choice (assumption log 9). -/
def Obligations.SwCompletes : Prop :=
  ∀ (s : State) (rs1 rs2 : Reg) (imm : Word), memWf s.mem = true →
    let ea := effectiveAddress (s.reg rs1) imm
    ea = s.reg rs1 + imm ∧
    (ea.toNat % 4 = 0 → ea.toNat + 4 ≤ s.cfg.memSize →
      ∃ t, exec (.sw rs1 rs2 imm) s = .next t ∧ StoreStep s t ea (s.reg rs2) (s.archPc + 4))

/-- R54, R55, R165: a misaligned access raises `MisalignedAccess`, an aligned one outside memory raises
`MemoryFault`, both with the effective address, and nothing else changes. The count and the number of a sequential
step, and the `seq` of its fault, are the model's choice (assumption log 9). -/
def Obligations.MemoryAccessFaults : Prop :=
  ∀ (s : State) (r q : Reg) (imm : Word),
    ((s.reg r + imm).toNat % 4 ≠ 0 →
      (∃ t, exec (.lw q r imm) s = .next t ∧ FaultStep s t .misalignedAccess (s.reg r + imm)) ∧
      (∃ t, exec (.sw r q imm) s = .next t ∧ FaultStep s t .misalignedAccess (s.reg r + imm))) ∧
    ((s.reg r + imm).toNat % 4 = 0 → s.cfg.memSize < (s.reg r + imm).toNat + 4 →
      (∃ t, exec (.lw q r imm) s = .next t ∧ FaultStep s t .memoryFault (s.reg r + imm)) ∧
      (∃ t, exec (.sw r q imm) s = .next t ∧ FaultStep s t .memoryFault (s.reg r + imm)))

/-- R52, R209: a word read at the address of a word just written is that word, in either byte order, and a byte
outside the four is as before, in every memory of canonical form. -/
def Obligations.ReadAfterWrite : Prop :=
  ∀ (s : State) (ea v : Word), memWf s.mem = true →
    (s.writeWord ea v).readWord ea = v ∧
    (∀ a, a < ea.toNat ∨ ea.toNat + 4 ≤ a → (s.writeWord ea v).readByte a = s.readByte a)

/-! ## Control and system instructions (sequential) -/

/-- R168 to R171: `beq` and `bne` compare all 32 bits, go to `imm` when taken and to `pc + 4` when not, and write
nothing. The count and the number of a sequential step, and the `seq` of its fault, are the model's choice
(assumption log 9). -/
def Obligations.EqualityBranchesComplete : Prop :=
  ∀ (s : State) (rs1 rs2 : Reg) (imm : Word),
    (∃ t, exec (.beq rs1 rs2 imm) s = .next t ∧
      PlainStep s t (if s.reg rs1 = s.reg rs2 then imm else s.archPc + 4) s.outcome) ∧
    (∃ t, exec (.bne rs1 rs2 imm) s = .next t ∧
      PlainStep s t (if s.reg rs1 = s.reg rs2 then s.archPc + 4 else imm) s.outcome)

/-- R168, R169, R172 to R175: the four ordering branches compare signed. The count and the number of a sequential
step, and the `seq` of its fault, are the model's choice (assumption log 9). -/
def Obligations.OrderingBranchesComplete : Prop :=
  ∀ (s : State) (rs1 rs2 : Reg) (imm : Word),
    (∃ t, exec (.bgt rs1 rs2 imm) s = .next t ∧
      PlainStep s t (if (s.reg rs2).slt (s.reg rs1) then imm else s.archPc + 4) s.outcome) ∧
    (∃ t, exec (.bge rs1 rs2 imm) s = .next t ∧
      PlainStep s t (if (s.reg rs1).slt (s.reg rs2) then s.archPc + 4 else imm) s.outcome) ∧
    (∃ t, exec (.ble rs1 rs2 imm) s = .next t ∧
      PlainStep s t (if (s.reg rs2).slt (s.reg rs1) then s.archPc + 4 else imm) s.outcome) ∧
    (∃ t, exec (.blt rs1 rs2 imm) s = .next t ∧
      PlainStep s t (if (s.reg rs1).slt (s.reg rs2) then imm else s.archPc + 4) s.outcome)

/-- R176 to R178: `j` and `jr` go to their target, `jal` also links `pc + 4` in register 31; no target is checked.
The count and the number of a sequential step, and the `seq` of its fault, are the model's choice (assumption log
9). -/
def Obligations.JumpsComplete : Prop :=
  ∀ (s : State) (rs1 : Reg) (imm : Word),
    (∃ t, exec (.j imm) s = .next t ∧ PlainStep s t imm s.outcome) ∧
    (∃ t, exec (.jal imm) s = .next t ∧ RegisterStep s t 31 (s.archPc + 4) imm) ∧
    (∃ t, exec (.jr rs1) s = .next t ∧ PlainStep s t (s.reg rs1) s.outcome)

/-- R179, R181: `nop` only advances the pc; `halt` does so and ends the run halted. The count and the number of a
sequential step, and the `seq` of its fault, are the model's choice (assumption log 9). -/
def Obligations.NopAndHaltComplete : Prop :=
  ∀ s : State,
    (∃ t, exec .nop s = .next t ∧ PlainStep s t (s.archPc + 4) s.outcome) ∧
    (∃ t, exec .halt s = .next t ∧ PlainStep s t (s.archPc + 4) .halted)

/-- R180: `syscall` with `x[2] = 10` completes and ends the run halted; with any other value it raises
`UnsupportedSyscall` with address 0. The count and the number of a sequential step, and the `seq` of its fault, are
the model's choice (assumption log 9). -/
def Obligations.SyscallExitsOrFaults : Prop :=
  ∀ s : State,
    (s.reg 2 = 10 → ∃ t, exec .syscall s = .next t ∧ PlainStep s t (s.archPc + 4) .halted) ∧
    (s.reg 2 ≠ 10 → ∃ t, exec .syscall s = .next t ∧ FaultStep s t .unsupportedSyscall 0)

/-- R98, R118: what an ALU unit computes from an instruction's operands is what the sequential semantics applies. R76,
R77: `lw` and `sw` execute on an LSU unit, `nop`, `syscall` and `halt` on none, every other instruction on an ALU unit;
which opcodes read `rs1`, read `rs2` and write `rd`; which are conditional branches and which are control instructions.
-/
def Obligations.UnitAgreesWithExec : Prop :=
  (∀ op : Opcode,
    (opClass op = some .lsu ↔ op ∈ [Opcode.lw, .sw]) ∧
    (opClass op = none ↔ op ∈ [Opcode.nop, .syscall, .halt]) ∧
    (opClass op = some .alu ↔ op ∉ [Opcode.lw, .sw, .nop, .syscall, .halt]) ∧
    opClass op ≠ some .fpu ∧
    (readsRs1 op = false ↔ op ∈ [Opcode.li, .la, .j, .jal, .nop, .syscall, .halt]) ∧
    (readsRs2 op = true ↔ op ∈ [Opcode.add, .sub, .mul, .and, .or, .xor, .slt, .sw, .beq, .bne, .bgt, .bge, .ble, .blt]) ∧
    (writesRd op = true ↔
      op ∈ [Opcode.add, .addi, .sub, .mul, .and, .or, .xor, .sll, .srl, .slt, .li, .la, .lw, .jal]) ∧
    (isConditional op = true ↔ op ∈ [Opcode.beq, .bne, .bgt, .bge, .ble, .blt]) ∧
    (isControl op = true ↔ op ∈ [Opcode.beq, .bne, .bgt, .bge, .ble, .blt, .j, .jal, .jr])) ∧
  ∀ (s : State) (i : Instr), opClass i.record.op = some .alu →
    exec i s = s.finishSequential i.record.rd
      (unitResult s.cfg.overflowTraps i.record.op (s.reg i.record.rs1) (s.reg i.record.rs2) i.record.imm s.archPc)

/-! ## Invariants every step keeps -/

/-- R51, R53: the memory keeps its canonical form. (The form is the model's: addresses rise, no listed byte is 0;
assumption log 14.) -/
def Obligations.MemoryStaysCanonical : Prop :=
  ∀ s t : State, step s = .next t → memWf s.mem = true → memWf t.mem = true

/-- R26: register 0 reads 0, and holds 0 and is ready from every loaded state on; an instruction whose destination
field names it has no destination, renames nothing, and its commit writes nothing; `INIT_REGS[0]` must be 0. -/
def Obligations.ZeroRegisterHeld : Prop :=
  (∀ s : State, s.reg 0 = 0) ∧
  (∀ s t : State, step s = .next t → ZeroHeld s → ZeroHeld t) ∧
  (∀ (c : Config) (p : Program) (s : State), State.load c p = .next s → ZeroHeld s) ∧
  (∀ (s : State) (f : FetchRec) (r : InstrRecord), f.body = some r → r.rd = 0 →
    (newRobEntry f s.seqNext).dest = none ∧ ∀ i, (s.allocate f).regEntry i = s.regEntry i) ∧
  (∀ (s : State) (e : RobEntry), e.dest = none → ∀ i, (s.commitOne e).regEntry i = s.regEntry i) ∧
  (∀ (c : Config) (p : Program), p.initRegs[0] ≠ 0 → ∀ s, State.load c p ≠ .next s)

/-- R9, R29, R62: no step changes the configuration, the instruction array or the driver. The driver is the model's
own field (assumption log 1). -/
def Obligations.ConfigurationAndTextFixed : Prop :=
  ∀ s t : State, step s = .next t → t.cfg = s.cfg ∧ t.imem = s.imem ∧ t.driver = s.driver

/-- R30, R32, R150: the ROB stays a ring with `0 ≤ rob_count ≤ ROB_CAP` whose window is exactly its valid entries,
and a register that is not ready names a valid ROB entry whose destination it is. (`ZeroHeld` is itself kept: see
`ZeroRegisterHeld`.) -/
def Obligations.RenameMapSound : Prop :=
  ∀ s t : State, step s = .next t → ZeroHeld s → RobRing s → RenameSound s → RobRing t ∧ RenameSound t

/-- R97, R140: sequence numbers rise from head to tail in every state, and the entries one tick commits are in
rising order. -/
def Obligations.CommitInProgramOrder : Prop :=
  ∀ s : State, RobRing s → RobOrdered s →
    (∀ t, step s = .next t → RobOrdered t) ∧
    (s.commitStageLog.map (·.seq)).Pairwise (· < ·) ∧
    (∀ e, e ∈ s.commitStageLog → e.seq < s.seqNext)

/-- R32, R34, R35, R37, R39, R40, R45, R47, R48: no queue outgrows its capacity, and no table changes its size: the ROB,
the stations, the units and their busy counts, the pattern table, the BTB, the sets and lines of both caches. -/
def Obligations.CapacitiesKept : Prop :=
  ∀ s t : State, step s = .next t → WithinCapacity s → WithinCapacity t

/-- R90, R94, R95, R96: decode's reservations hold in every state, so issue always empties the decode latch, and each
latched record that needs a unit is in a station of its class that was free, with its operands captured; the first one is
in the lowest free station; occupied stations are untouched. An operand is ready with 0, with the register's value, or
with the value of its completed producer; else it waits for its producer, if that is still in the ROB. (What the `tag` of
a ready operand holds is the model's choice, assumption log 28: nothing is said of it.) -/
def Obligations.LatchAlwaysEmptied : Prop :=
  (∀ s : State, LatchReserved s →
    let t : State := s.issueStage
    t.dl = [] ∧ (∀ u, step s = .next u → LatchReserved u) ∧
    (∀ (d : DecRec) (r : InstrRecord) (k : FuClass), d ∈ s.dl → d.fetched.body = some r → opClass r.op = some k →
      ∃ (j : Nat) (old e : RsEntry), (s.rs.get k)[j]? = some old ∧ old.valid = false ∧ (t.rs.get k)[j]? = some e ∧
        e.valid = true ∧ e.cls = k ∧ e.rob = d.rob ∧ e.seq = d.seq ∧ e.op = r.op ∧ e.imm = r.imm ∧
        e.pc = d.fetched.pc ∧ e.fetchedNextPc = d.fetched.fetchedNextPc ∧ e.issuedCycle = s.cycle ∧
        e.a = s.capture d.src1 ∧ e.b = s.capture d.src2) ∧
    (∀ (d : DecRec) (r : InstrRecord) (k : FuClass) (j : Nat) (old : RsEntry), s.dl.head? = some d →
      d.fetched.body = some r → opClass r.op = some k → (s.rs.get k)[j]? = some old → old.valid = false →
      (∀ x, x ∈ (s.rs.get k).take j → x.valid = true) →
      ∃ e : RsEntry, (t.rs.get k)[j]? = some e ∧ e.valid = true ∧ e.rob = d.rob ∧ e.seq = d.seq) ∧
    (∀ (k : FuClass) (j : Nat) (e : RsEntry), (s.rs.get k)[j]? = some e → e.valid = true →
      (t.rs.get k)[j]? = some e)) ∧
  (∀ (s : State) (i : Reg) (p q : Nat),
    let e : RobEntry := s.robAt p
    let o : Operand := s.capture (.tag p q i)
    ((s.capture .const0).ready = true ∧ (s.capture .const0).value = 0) ∧
    ((s.capture (.arch i)).ready = true ∧ (s.capture (.arch i)).value = s.reg i) ∧
    (e.valid = true → e.seq = q → e.completed = true → e.exception = none → o.ready = true ∧ o.value = e.value) ∧
    (e.valid = true → e.seq = q → e.completed = false ∨ e.exception ≠ none → o = ⟨false, 0, p⟩) ∧
    (e.valid = false ∨ e.seq ≠ q → o.ready = true ∧ o.value = s.reg i))

/-- R109: every branch history fits `BP_H` bits; with gshare a fetched conditional branch shifts its prediction into bit
0 of the history and its record keeps the history before the shift, and nothing else fetched shifts it; under the other
predictors no step changes the history. -/
def Obligations.HistoryStaysInWidth : Prop :=
  (∀ s t : State, step s = .next t → HistoryFits s → HistoryFits t) ∧
  (∀ (s : State) (r : InstrRecord) (p : Word),
    let t : State := (s.deliver r p).2
    ∃ f : FetchRec, t.fb = s.fb ++ [f] ∧ f.body = some r ∧ f.pc = p ∧ f.ghrSnap = s.pred.ghr ∧
      t.pred.ghr =
        (if s.cfg.bpType = .gshare ∧ isConditional r.op = true then
          ((s.pred.ghr <<< 1) ||| f.predTaken.toNat) % 2 ^ s.cfg.bpHistory
         else s.pred.ghr)) ∧
  (∀ s t : State, step s = .next t → s.cfg.bpType ≠ .gshare → t.pred.ghr = s.pred.ghr)

/-- R116, R117, R119: in every state a busy unit has between 1 and `FU_LAT[K]` ticks left; each advance step takes one
from it and counts one busy tick, and frees it when none is left; a free unit is left alone. The ALU and FPU units that
finish in a tick post the results of their bound instructions, in unit order, and the LSU units that finish resolve the
addresses of theirs (R128: see `AddressResolution`). (The `value` of a result with an exception and
the `exc_addr` of one without are the model's choice, assumption log 29.) -/
def Obligations.UnitsKeepWithinLatency : Prop :=
  (∀ s t : State, step s = .next t → UnitsWithinLatency s → UnitsWithinLatency t) ∧
  (∀ (s : State) (k : FuClass) (j : Nat) (u : FuUnit), (s.fu.get k)[j]? = some u →
    let t : State := s.advanceStage
    let r : ExecResult := unitResult s.cfg.overflowTraps u.op u.a u.b u.imm u.pc
    (u.busy = false → (t.fu.get k)[j]? = some u) ∧
    (u.busy = true → 2 ≤ u.remaining → (t.fu.get k)[j]? = some { u with remaining := u.remaining - 1 }) ∧
    (u.busy = true → u.remaining = 1 →
      (t.fu.get k)[j]? = some { u with remaining := 0, busy := false } ∧
      (k ≠ .lsu →
        { seq := u.seq, rob := u.rob, value := r.value, exception := r.exception, excAddr := r.excAddr
          actualTaken := r.taken, actualNextPc := r.nextPc, lsq := none } ∈ t.cdbq)) ∧
    (∀ n, (s.metrics.fuBusy.get k)[j]? = some n →
      (t.metrics.fuBusy.get k)[j]? = some (n + if u.busy = true then 1 else 0))) ∧
  (∀ s : State, UnitsWithinLatency s →
    let t : State := s.advanceStage
    let finished : FuClass → List FuUnit := fun k => (s.fu.get k).filter (fun u => u.busy && u.remaining == 1)
    let posted : FuUnit → CdbResult := fun u =>
      let r : ExecResult := unitResult s.cfg.overflowTraps u.op u.a u.b u.imm u.pc
      { seq := u.seq, rob := u.rob, value := r.value, exception := r.exception, excAddr := r.excAddr
        actualTaken := r.taken, actualNextPc := r.nextPc, lsq := none }
    t.cdbq = s.cdbq ++ (finished .alu).map posted ++ (finished .fpu).map posted ∧
    t.lsq = ((finished .lsu).foldl State.resolve s).lsq ∧
    t.rob = ((finished .lsu).foldl State.resolve s).rob)

/-- R69, for each cache: hits never exceed accesses in any state, and the accesses that are not hits rise by one
exactly when an access misses. -/
def Obligations.CacheCountsKept : Prop :=
  (∀ s t : State, step s = .next t → CacheCountsSound s → CacheCountsSound t) ∧
  (∀ (s : State) (write : Bool) (a : Word), CacheCountsSound s →
    let t : State := (s.dcacheAccess write a).2
    t.metrics.dcacheAccesses = s.metrics.dcacheAccesses + 1 ∧
    t.metrics.dcacheAccesses - t.metrics.dcacheHits =
      s.metrics.dcacheAccesses - s.metrics.dcacheHits +
        (if hitWay s.cfg.dcache s.dcache a.toNat = none then 1 else 0)) ∧
  (∀ (s : State) (p : Word), CacheCountsSound s →
    let t : State := (s.icacheRead p).2
    t.metrics.icacheAccesses = s.metrics.icacheAccesses + 1 ∧
    t.metrics.icacheAccesses - t.metrics.icacheHits =
      s.metrics.icacheAccesses - s.metrics.icacheHits +
        (if hitWay s.cfg.icache s.icache p.toNat = none then 1 else 0))

/-- R202, R200: every loaded program starts in a state that meets the invariants above, with the register values the
loader gives. -/
def Obligations.LoadedStateMeetsInvariants : Prop :=
  ∀ (c : Config) (p : Program) (s : State), State.load c p = .next s →
    memWf s.mem = true ∧ ZeroHeld s ∧ RobRing s ∧ RenameSound s ∧ RobOrdered s ∧ WithinCapacity s ∧
    LatchReserved s ∧ HistoryFits s ∧ UnitsWithinLatency s ∧ CacheCountsSound s ∧
    CacheShape s.cfg.icache s.icache ∧ CacheShape s.cfg.dcache s.dcache ∧ s.startRefusal = none ∧
    (∀ r : Reg, s.reg r = p.initRegs[r.toNat]'r.isLt)

/-- R202: every loaded program starts with the reset values the spec gives, and so does the reset state, which loading a
program with nothing in it gives. Its configuration is the reference one by the model's choice (assumption log 2). -/
def Obligations.ResetValues : Prop :=
  (∀ (c : Config) (p : Program) (s : State), State.load c p = .next s → AsReset s) ∧
  AsReset State.reset ∧
  (∀ r : Reg, State.reset.reg r = 0) ∧
  (∀ r : Reg, State.reset.regEntry r = ⟨0, true, 0⟩) ∧
  State.reset.archPc = State.reset.cfg.textBase ∧ State.reset.fetch.pc = State.reset.cfg.textBase ∧
  State.reset.imem = [] ∧ State.reset.mem = [] ∧
  State.reset.robHead = 0 ∧ State.reset.robTail = 0 ∧ State.reset.robCount = 0 ∧
  (∀ e, e ∈ State.reset.rob → e.valid = false) ∧
  (∀ k e, e ∈ State.reset.rs.get k → e.valid = false) ∧ (∀ k u, u ∈ State.reset.fu.get k → u.busy = false) ∧
  State.reset.cdbq = [] ∧ State.reset.lsq = [] ∧ State.reset.fb = [] ∧ State.reset.dl = [] ∧
  State.reset.mport.busy = false ∧ State.reset.seqNext = 0 ∧ State.reset.cycle = 0 ∧
  State.reset.outcome = .running ∧
  State.reset.fetch.stall = 0 ∧ State.reset.fetch.stallCause = .icacheMiss ∧ State.reset.fetch.blocked = false ∧
  (∀ v, v ∈ State.reset.pred.pht → v = 1#2) ∧ State.reset.pred.ghr = 0 ∧ State.reset.pred.btbStamp = 0 ∧
  (∀ e, e ∈ State.reset.pred.btb → e.valid = false ∧ e.lru = 0) ∧
  State.reset.icache.stamp = 0 ∧ State.reset.dcache.stamp = 0 ∧
  (∀ ways, ways ∈ State.reset.icache.sets ++ State.reset.dcache.sets →
    ∀ l, l ∈ ways → l.valid = false ∧ l.dirty = false ∧ l.lru = 0) ∧
  State.reset.metrics =
    { instructionsCommitted := 0, branchPredictions := 0, branchMispredictions := 0
      icacheAccesses := 0, icacheHits := 0, dcacheAccesses := 0, dcacheHits := 0
      stallRobFull := 0, stallRsFull := 0, stallLsqFull := 0, stallIcacheMiss := 0, stallDcacheMiss := 0
      stallRawHazard := 0, fuBusy := ⟨[0, 0], [0], [0]⟩ } ∧
  State.load Config.reference { text := [], data := [] } = .next State.reset

/-- R199, R200, R84: a configuration is valid exactly if it meets every condition of R199; the loader refuses an invalid
one, and with a valid one it refuses every program that breaks a condition of R200; every other program it loads: it
gives a running state with the program's records, entry pc and registers, each datum at its place, and 0 in every byte
outside the data and in the bytes passed over before an aligned `.word` list. (That an invalid configuration is named
before an invalid program, that a program which places no byte fits, and that a text beyond the address space is
refused, are the model's choices: assumption log 27, 18, 31.) -/
def Obligations.LoaderRefusesOrResets : Prop :=
  ∀ (c : Config) (p : Program),
    (c.valid = true ↔ ValidConfig c) ∧
    (c.valid = false → State.load c p = .refused .configInvalid) ∧
    (c.valid = true → ¬ Loadable c p → State.load c p = .refused .programInvalid) ∧
    (c.valid = true → Loadable c p →
      ∃ s : State, State.load c p = .next s ∧
        s.cfg = c ∧ s.imem = p.text ∧ s.archPc = p.entry c ∧ s.fetch.pc = p.entry c ∧ s.outcome = .running ∧
        (∀ r : Reg, s.reg r = p.initRegs[r.toNat]'r.isLt) ∧
        (∀ pre d post, p.data = pre ++ d :: post → DatumAt s (dataEnd p.dataBase pre) d) ∧
        (∀ a, a < p.dataBase ∨ dataEnd p.dataBase p.data ≤ a → s.readByte a = 0))

/-! ## The W stage -/

/-- R15, R51, R143, R144: no stage but commit changes a register value, memory, `arch_pc`, the outcome or the
committed count. -/
def Obligations.OnlyCommitChangesArchState : Prop :=
  ∀ s : State,
    (SameArch s s.memoryStage ∧ SameArch s s.executeStage ∧ SameArch s s.issueStage ∧ SameArch s s.decodeStage
      ∧ SameArch s s.fetchStage) ∧
    (∀ t, t ∈ [s.memoryStage, s.executeStage, s.issueStage, s.decodeStage, s.fetchStage] →
      t.outcome = s.outcome ∧ t.metrics.instructionsCommitted = s.metrics.instructionsCommitted)

/-- R142: the entries one tick commits write pairwise different registers, and an entry whose register this tick has
already written waits. -/
def Obligations.NoDoubleWrite : Prop :=
  (∀ s : State, (s.commitStageLog.filterMap (·.dest)).Nodup) ∧
  (∀ (s : State) (written : List Reg) (d : Reg), s.headEntry.exception = none → s.headEntry.dest = some d →
    d ∈ written → ∀ n, commitLoop n written s = s)

/-- R101, R88, R140, R141: a tick counts exactly the entries it commits, at most `W_c` of them, and none of them carries
an exception. A completed head without an exception, which is no `syscall` without the exit request, is committed; each
entry committed is the head when the ones before it have been committed; and the tick commits no more entries only where
`W_c` are committed, the ROB is empty, its head is not completed, carries an exception, writes a register this tick has
written or is a `syscall` without the exit request, or the last entry committed ends the run or is mispredicted. The
architectural state is then what those commits leave. -/
def Obligations.CommittedCountIsLog : Prop :=
  ∀ s : State,
    s.tick.metrics.instructionsCommitted = s.metrics.instructionsCommitted + s.commitStageLog.length ∧
    s.commitStageLog.length ≤ s.cfg.commitWidth ∧
    (∀ e, e ∈ s.commitStageLog → e.completed = true ∧ e.exception = none) ∧
    (0 < s.cfg.commitWidth → s.robCount ≠ 0 → s.headEntry.completed = true → s.headEntry.exception = none →
      ¬ (s.headEntry.op = some .syscall ∧ s.reg 2 ≠ 10) → s.commitStageLog.head? = some s.headEntry) ∧
    (∀ pre e post, s.commitStageLog = pre ++ e :: post → e = (s.commitAll pre).headEntry) ∧
    let u : State := s.commitAll s.commitStageLog
    (s.commitStageLog.length = s.cfg.commitWidth ∨ u.robCount = 0 ∨ u.headEntry.completed = false ∨
      u.headEntry.exception ≠ none ∨ (∃ d, u.headEntry.dest = some d ∧ d ∈ s.commitStageLog.filterMap (·.dest)) ∨
      (u.headEntry.op = some .syscall ∧ u.reg 2 ≠ 10) ∨
      ∃ e, s.commitStageLog.getLast? = some e ∧ (e.halts = true ∨ e.mispredicted = true)) ∧
    SameArch u s.commitStage

/-- R143: committing the head writes its value to its register alone, makes the register ready exactly if its tag
named this entry (an entry that was ready stays ready), stores a store's word, leaves the queue head, moves
`arch_pc`, counts one, and frees the slot. A store makes one write access to the D-cache (R65), which counts its hit; no
other commit touches the D-cache. Every ROB entry but the head is as before. -/
def Obligations.CommitOneEffects : Prop :=
  ∀ (s : State) (e : RobEntry), s.robHead < s.rob.length →
    (∀ r, (s.commitOne e).reg r = if e.dest = some r ∧ r ≠ 0 then e.value else s.reg r) ∧
    (∀ r, r ≠ 0 → ((s.commitOne e).regEntry r).tag = (s.regEntry r).tag ∧
      ((s.commitOne e).regEntry r).ready =
        ((s.regEntry r).ready || (e.dest == some r && (s.regEntry r).tag == s.robHead))) ∧
    (s.commitOne e).mem = (if e.isStore then memWriteWord s.cfg.byteOrder s.mem e.stAddr.toNat e.stValue else s.mem) ∧
    (s.commitOne e).lsq = (if e.hasLsq then s.lsq.tail else s.lsq) ∧
    (s.commitOne e).archPc = e.actualNextPc ∧
    (s.commitOne e).metrics.instructionsCommitted = s.metrics.instructionsCommitted + 1 ∧
    (s.commitOne e).metrics.branchPredictions = s.metrics.branchPredictions + (if e.isCtl then 1 else 0) ∧
    (s.commitOne e).metrics.branchMispredictions =
      s.metrics.branchMispredictions + (if e.isCtl && e.mispredicted then 1 else 0) ∧
    (s.commitOne e).metrics.dcacheAccesses = s.metrics.dcacheAccesses + (if e.isStore then 1 else 0) ∧
    (s.commitOne e).dcache =
      (if e.isStore then (cacheAccess s.cfg.dcache true s.dcache e.stAddr.toNat).2 else s.dcache) ∧
    (s.commitOne e).metrics.dcacheHits =
      s.metrics.dcacheHits +
        (if e.isStore = true ∧ hitWay s.cfg.dcache s.dcache e.stAddr.toNat ≠ none then 1 else 0) ∧
    (∀ i, i ≠ s.robHead → (s.commitOne e).robAt i = s.robAt i) ∧
    ((s.commitOne e).robAt s.robHead).valid = false ∧
    (s.commitOne e).robHead = (s.robHead + 1) % s.cfg.robCap ∧ (s.commitOne e).robCount = s.robCount - 1

/-- R140, R145, R180: a head that carries an exception, or a `syscall` without the exit request, ends the run faulted with
its pc and sequence number; nothing else of the state changes in the commit stage. The same holds of a head reached after
other entries have committed in the tick: those commits stand, and nothing else changes. The commit stage ends a running
run faulted in no other way. -/
def Obligations.FaultAtHeadIsSurfaced : Prop :=
  (∀ s : State,
    let log : List RobEntry := s.commitStageLog
    let u : State := s.commitAll log
    (log.length < s.cfg.commitWidth → u.robCount ≠ 0 → u.headEntry.completed = true →
      (∀ e, log.getLast? = some e → e.halts = false ∧ e.mispredicted = false) →
      (∀ c, u.headEntry.exception = some c →
        s.commitStage =
          { u with outcome := .faulted c u.headEntry.pc u.headEntry.seq u.headEntry.excAddr }) ∧
      (u.headEntry.exception = none → u.headEntry.op = some .syscall → u.reg 2 ≠ 10 →
        (∀ d, u.headEntry.dest = some d → d ∉ log.filterMap (·.dest)) →
        s.commitStage =
          { u with outcome := .faulted .unsupportedSyscall u.headEntry.pc u.headEntry.seq 0 })) ∧
    (s.outcome = .running → ∀ c pc q a, s.commitStage.outcome = .faulted c pc q a →
      u.robCount ≠ 0 ∧ u.headEntry.completed = true ∧ pc = u.headEntry.pc ∧ q = u.headEntry.seq ∧
      ((u.headEntry.exception = some c ∧ a = u.headEntry.excAddr) ∨
        (u.headEntry.exception = none ∧ u.headEntry.op = some .syscall ∧ u.reg 2 ≠ 10 ∧
          c = .unsupportedSyscall ∧ a = 0)))) ∧
  ∀ s : State, 0 < s.cfg.commitWidth → s.robCount ≠ 0 → s.headEntry.completed = true →
    (∀ c, s.headEntry.exception = some c →
      s.commitStage =
        { s with outcome := .faulted c s.headEntry.pc s.headEntry.seq s.headEntry.excAddr }) ∧
    (s.headEntry.exception = none → s.headEntry.op = some .syscall → s.reg 2 ≠ 10 →
      s.commitStage =
        { s with outcome := .faulted .unsupportedSyscall s.headEntry.pc s.headEntry.seq 0 })

/-- R146: if the commit stage leaves a running state halted, the last entry it committed is a `halt` or a `syscall`,
and every earlier one is not. -/
def Obligations.HaltEndsCommit : Prop :=
  (∀ e : RobEntry, e.halts = true ↔ e.op = some .halt ∨ e.op = some .syscall) ∧
  ∀ s : State, s.outcome = .running →
    (s.commitStage.outcome = .halted ↔ ∃ pre e, s.commitStageLog = pre ++ [e] ∧ e.halts = true) ∧
    (∀ pre e post, s.commitStageLog = pre ++ e :: post → post ≠ [] → e.halts = false ∧ e.mispredicted = false)

/-- R147, R148, R149, R112: an entry is mispredicted exactly if fetch followed another pc than its actual next pc, or it
is a control instruction predicted in the other direction than it took. If the last entry the commit stage retires is
mispredicted and does not halt, every structure is empty, every register is ready, and fetch restarts at its actual next
pc; with gshare the history is the entry's snapshot, into which a conditional branch shifts its outcome. -/
def Obligations.MispredictionSquashes : Prop :=
  (∀ e : RobEntry, e.mispredicted = true ↔
    e.fetchedNextPc ≠ e.actualNextPc ∨ (e.isCtl = true ∧ e.predTaken ≠ e.actualTaken)) ∧
  ∀ (s : State) (pre : List RobEntry) (e : RobEntry), s.commitStageLog = pre ++ [e] →
    e.mispredicted = true → e.halts = false →
    let t : State := s.commitStage
    t.robCount = 0 ∧ t.robTail = t.robHead ∧ (∀ y, y ∈ t.rob → y.valid = false) ∧
    (∀ (k : FuClass) (x : RsEntry), x ∈ t.rs.get k → x.valid = false) ∧
    (∀ (k : FuClass) (u : FuUnit), u ∈ t.fu.get k → u.busy = false) ∧
    t.cdbq = [] ∧ t.lsq = [] ∧ t.mport.busy = false ∧ t.dl = [] ∧ t.fb = [] ∧
    (∀ r, (t.regEntry r).ready = true) ∧
    t.fetch.pc = e.actualNextPc ∧ t.fetch.stall = 0 ∧ t.fetch.blocked = false ∧ t.archPc = e.actualNextPc ∧
    (s.cfg.bpType = .gshare → ∀ op, e.op = some op →
      t.pred.ghr =
        (if isConditional op = true then ((e.ghrSnap <<< 1) ||| e.actualTaken.toNat) % 2 ^ s.cfg.bpHistory
         else e.ghrSnap)) ∧
    (s.cfg.bpType ≠ .gshare → t.pred.ghr = s.pred.ghr)

/-- R43: `seq_next` is 0 at reset, whatever is loaded, and is the number the next decoded instruction gets; no step ever
lowers it, and a squash leaves it alone. (A sequential step numbers its instruction too, assumption log 9.) -/
def Obligations.SequenceNumbersOnlyRise : Prop :=
  State.reset.seqNext = 0 ∧
  (∀ (c : Config) (p : Program) (s : State), State.load c p = .next s → s.seqNext = 0) ∧
  (∀ s t : State, step s = .next t → s.seqNext ≤ t.seqNext) ∧
  (∀ (s : State) (f : FetchRec), (s.allocate f).seqNext = s.seqNext + 1 ∧
    ∃ d, (s.allocate f).dl = s.dl ++ [d] ∧ d.seq = s.seqNext) ∧
  (∀ (s : State) (e : RobEntry), (s.squashAfter e).seqNext = s.seqNext)

/-! ## The M stage and the load/store queue -/

/-- R128: address resolution writes the effective address into the entry; a store's ROB entry is completed with
address and data, a faulting access is completed with its cause and address, a sound load becomes ready. -/
def Obligations.AddressResolution : Prop :=
  ∀ (s : State) (u : FuUnit) (pre post : List LsqEntry) (l : LsqEntry),
    s.lsq = pre ++ l :: post → l.rob = u.rob → (∀ x, x ∈ pre ++ post → x.rob ≠ u.rob) → u.rob < s.rob.length →
    let ea := u.a + u.imm
    let fault : Option Cause :=
      if ea.toNat % 4 ≠ 0 then some .misalignedAccess
      else if s.cfg.memSize < ea.toNat + 4 then some .memoryFault else none
    let t : State := s.resolve u
    let e : RobEntry := s.robAt u.rob
    let f : RobEntry := t.robAt u.rob
    (∃ l', t.lsq = pre ++ l' :: post ∧ l'.addr = ea ∧ l'.addrOk = true ∧ l'.fault = fault ∧ l'.kind = l.kind ∧
      l'.seq = l.seq ∧ l'.rob = l.rob ∧
      (l.kind = .store → l'.data = u.b ∧ l'.lstate = l.lstate) ∧
      (l.kind = .load → l'.data = l.data ∧ l'.lstate = if fault = none then .ready else .done)) ∧
    (l.kind = .store → f.stAddr = ea ∧ f.stValue = u.b ∧ f.completed = true) ∧
    (∀ c, fault = some c → f.completed = true ∧ f.exception = some c ∧ f.excAddr = ea) ∧
    (fault = none → f.exception = e.exception ∧ f.excAddr = e.excAddr) ∧
    (fault = none → l.kind = .load → f = e) ∧
    (∀ i, i ≠ u.rob → t.robAt i = s.robAt i) ∧ t.rs = s.rs ∧ t.cdbq = s.cdbq ∧ t.mem = s.mem

/-- R130, R131, R135: the load the M stage starts may start (no older store is unresolved or overlaps it partly) and no
older load of the queue may; none is chosen exactly if no load of the queue may start, and an idle memory stage then does
nothing. Two aligned word accesses never overlap partly. -/
def Obligations.UnresolvedStoreHoldsLoads : Prop :=
  (∀ (q : List LsqEntry) (l : LsqEntry) (older : List LsqEntry), oldestEligible [] q = some (l, older) →
    (∃ post, q = older.reverse ++ l :: post) ∧ MayStart older.reverse l ∧
    (∀ pre x post, q = pre ++ x :: post → MayStart pre x → older.length ≤ pre.length)) ∧
  (∀ q : List LsqEntry, oldestEligible [] q = none ↔ ∀ pre x post, q = pre ++ x :: post → ¬ MayStart pre x) ∧
  (∀ s : State, s.mport.busy = false → (∀ pre x post, s.lsq = pre ++ x :: post → ¬ MayStart pre x) →
    s.memoryStage = s) ∧
  (∀ (st : LsqEntry) (a : Word), st.addr.toNat % 4 = 0 → a.toNat % 4 = 0 → partialOverlap st a = false)

/-- R133, R134, R135: a started load takes the data of the youngest older store without a fault to its address, in one
tick and without a D-cache access; with no such store it reads memory through the D-cache, in one read access that
counts its hit, and posts the value in the starting tick on a hit or if a miss takes one tick. The started load's LSQ
entry becomes `accessing`, and every other entry is as before. A busy port starts nothing: it counts one tick down and,
where none is left, posts the result of its load and is free. -/
def Obligations.LoadsForwardOrRead : Prop :=
  (∀ (s : State) (n : Nat), s.mport.busy = true → s.mport.remaining = n + 2 →
    s.memoryStage = { s with mport := { s.mport with remaining := n + 1 } }) ∧
  (∀ s : State, s.mport.busy = true → s.mport.remaining = 1 →
    s.memoryStage =
      { s with
        mport := { s.mport with busy := false, remaining := 0 }
        cdbq := s.cdbq ++
          [{ seq := s.mport.seq, rob := s.mport.rob, value := s.mport.value, exception := none, excAddr := 0
             actualTaken := false, actualNextPc := (s.robAt s.mport.rob).pc + 4, lsq := some s.mport.rob }] }) ∧
  ∀ (s : State) (l : LsqEntry) (older : List LsqEntry), s.mport.busy = false →
    oldestEligible [] s.lsq = some (l, older) →
    s.memoryStage.lsq = s.lsq.map (fun e => if e.rob = l.rob then { e with lstate := .accessing } else e) ∧
    (∀ near st far, older = near ++ st :: far → st.kind = .store → st.fault = none → st.addr = l.addr →
      (∀ x, x ∈ near → ¬ (x.kind = .store ∧ x.fault = none ∧ x.addr = l.addr)) →
      s.memoryStage.dcache = s.dcache ∧ s.memoryStage.metrics = s.metrics ∧ s.memoryStage.mport.busy = false ∧
      ∃ r, s.memoryStage.cdbq = s.cdbq ++ [r] ∧ r.value = st.data ∧ r.rob = l.rob ∧ r.seq = l.seq ∧
        r.exception = none ∧ r.lsq = some l.rob) ∧
    ((∀ x, x ∈ older → ¬ (x.kind = .store ∧ x.fault = none ∧ x.addr = l.addr)) →
      s.memoryStage.dcache = (cacheAccess s.cfg.dcache false s.dcache l.addr.toNat).2 ∧
      s.memoryStage.metrics.dcacheAccesses = s.metrics.dcacheAccesses + 1 ∧
      s.memoryStage.metrics.dcacheHits =
        s.metrics.dcacheHits + (if hitWay s.cfg.dcache s.dcache l.addr.toNat ≠ none then 1 else 0) ∧
      s.memoryStage.mport.value = s.readWord l.addr ∧
      (hitWay s.cfg.dcache s.dcache l.addr.toNat ≠ none →
        s.memoryStage.mport.busy = false ∧
        s.memoryStage.metrics.stallDcacheMiss = s.metrics.stallDcacheMiss ∧
        ∃ r, s.memoryStage.cdbq = s.cdbq ++ [r] ∧ r.value = s.readWord l.addr ∧ r.rob = l.rob ∧ r.seq = l.seq ∧
          r.exception = none ∧ r.lsq = some l.rob) ∧
      (hitWay s.cfg.dcache s.dcache l.addr.toNat = none → s.cfg.dcache.miss = 1 →
        s.memoryStage.mport.busy = false ∧
        s.memoryStage.metrics.stallDcacheMiss = s.metrics.stallDcacheMiss + 1 ∧
        ∃ r, s.memoryStage.cdbq = s.cdbq ++ [r] ∧ r.value = s.readWord l.addr ∧ r.rob = l.rob ∧ r.seq = l.seq ∧
          r.exception = none ∧ r.lsq = some l.rob) ∧
      (hitWay s.cfg.dcache s.dcache l.addr.toNat = none → 2 ≤ s.cfg.dcache.miss →
        s.memoryStage.cdbq = s.cdbq ∧ s.memoryStage.mport.busy = true ∧
        s.memoryStage.mport.rob = l.rob ∧ s.memoryStage.mport.seq = l.seq ∧
        s.memoryStage.mport.remaining = s.cfg.dcache.miss - 1 ∧
        s.memoryStage.metrics.stallDcacheMiss = s.metrics.stallDcacheMiss + s.cfg.dcache.miss))

/-! ## The X stage -/

/-- R113, R114: selection picks a valid entry with both operands ready and no ready entry is older; it picks nothing
exactly if no entry is ready. R124: the execute stage counts one RAW hazard exactly if it dispatches nothing, every class
having no free unit or no ready entry, while a valid entry has an operand that is not ready; no other stage counts one. -/
def Obligations.SelectsOldestReady : Prop :=
  (∀ rs : List RsEntry,
    (∀ i, oldestReady rs = some i → ∃ e, rs[i]? = some e ∧ e.valid = true ∧ e.isReady = true ∧
      (∀ x, x ∈ rs → x.valid = true → x.isReady = true → e.seq ≤ x.seq)) ∧
    (oldestReady rs = none ↔ ∀ x, x ∈ rs → x.valid = true → x.isReady = false)) ∧
  (∀ e : RsEntry, e.isReady = true ↔ e.a.ready = true ∧ e.b.ready = true) ∧
  ∀ s : State,
    let nothingDispatched : Prop := ∀ k,
      (∀ u, u ∈ s.fu.get k → u.busy = true) ∨
      (∀ e, e ∈ s.rs.get k → e.valid = true → e.a.ready = false ∨ e.b.ready = false)
    let someWaits : Prop := ∃ k e, e ∈ s.rs.get k ∧ e.valid = true ∧ (e.a.ready = false ∨ e.b.ready = false)
    (nothingDispatched ∧ someWaits →
      s.executeStage.metrics.stallRawHazard = s.metrics.stallRawHazard + 1) ∧
    (¬ (nothingDispatched ∧ someWaits) → s.executeStage.metrics.stallRawHazard = s.metrics.stallRawHazard) ∧
    (∀ t, t ∈ [s.commitStage, s.memoryStage, s.issueStage, s.decodeStage, s.fetchStage] →
      t.metrics.stallRawHazard = s.metrics.stallRawHazard)

/-- R114, R115, R116: selection for a class dispatches as many entries as there are free units or ready entries,
whichever are fewer, and leaves busy units alone; a unit that was free is bound to a ready entry, which leaves the
station, or is left alone; the execute stage selects so for each class, from its own units and stations and with its own
latency, before it advances the units and broadcasts; a bound unit is busy for the latency and holds the entry's
operation, operand values, immediate, pcs, ROB index and number; an entry that is not dispatched stays; no ready entry
left behind is older than a dispatched one; units take entries in index order, the older entry first, so the first free
unit takes the oldest ready entry. -/
def Obligations.DispatchWithinFreeUnits : Prop :=
  (∀ s : State, s.executeStage = s.selectStage.advanceStage.broadcastStage ∧
    ∀ k : FuClass, ∃ n,
      dispatchUnits (s.cfg.fuLat.get k) k (s.fu.get k) (s.rs.get k) = (s.selectStage.fu.get k, s.selectStage.rs.get k, n)) ∧
  ∀ (lat : Nat) (k : FuClass) (us us' : List FuUnit) (rs rs' : List RsEntry) (n : Nat),
    dispatchUnits lat k us rs = (us', rs', n) →
    let bound : RsEntry → FuUnit := fun e =>
      { busy := true, remaining := lat, op := e.op, a := e.a.value, b := e.b.value, imm := e.imm, pc := e.pc
        fetchedNextPc := e.fetchedNextPc, rob := e.rob, seq := e.seq }
    n = min (us.countP (fun u => !u.busy)) (rs.countP (fun e => e.valid && e.isReady)) ∧
    us'.length = us.length ∧ rs'.length = rs.length ∧
    us'.countP (fun u => u.busy) = us.countP (fun u => u.busy) + n ∧
    countValid rs' + n = countValid rs ∧
    (∀ (j : Nat) (u : FuUnit), us[j]? = some u → u.busy = true → us'[j]? = some u) ∧
    (∀ (j : Nat) (u u' : FuUnit), us[j]? = some u → u.busy = false → us'[j]? = some u' →
      u' = u ∨ ∃ (i : Nat) (e : RsEntry), rs[i]? = some e ∧ e.valid = true ∧ e.isReady = true ∧ u' = bound e ∧
        rs'[i]? = some { e with valid := false }) ∧
    (∀ (i : Nat) (e : RsEntry), rs[i]? = some e →
      rs'[i]? = some e ∨
        (rs'[i]? = some { e with valid := false } ∧ e.valid = true ∧ e.isReady = true ∧
          (∃ (j : Nat) (u : FuUnit), us[j]? = some u ∧ u.busy = false ∧ us'[j]? = some (bound e)) ∧
          (∀ x, x ∈ rs' → x.valid = true → x.isReady = true → e.seq ≤ x.seq))) ∧
    (∀ (j₁ j₂ : Nat) (u₁ u₂ v₁ v₂ : FuUnit), j₁ < j₂ → us[j₁]? = some u₁ → us[j₂]? = some u₂ → u₁.busy = false →
      u₂.busy = false → us'[j₁]? = some v₁ → us'[j₂]? = some v₂ → v₂.busy = true → v₁.busy = true ∧ v₁.seq ≤ v₂.seq)

/-- R120: the bus carries the `W_cdb` pending results with the lowest sequence numbers, the others stay queued, and none
is lost. If the carried results belong to different ROB entries, each one's entry is completed with its outcome and its
value or exception; every other ROB entry is as before. -/
def Obligations.BusTakesLowestSequence : Prop :=
  ∀ s : State,
    let carried : List CdbResult := (sortBySeq s.cdbq).take s.cfg.cdbWidth
    let t : State := s.broadcastStage
    t.cdbq.length = s.cdbq.length - s.cfg.cdbWidth ∧
    (∀ r, r ∈ carried → ∀ q, q ∈ t.cdbq → r.seq ≤ q.seq) ∧
    (carried ++ t.cdbq).Perm s.cdbq ∧
    (∀ r, r ∈ carried → r.rob < s.rob.length → (t.robAt r.rob).completed = true) ∧
    ((carried.map (·.rob)).Nodup → ∀ r, r ∈ carried → r.rob < s.rob.length →
      (t.robAt r.rob).actualTaken = r.actualTaken ∧ (t.robAt r.rob).actualNextPc = r.actualNextPc ∧
      (r.exception = none → (t.robAt r.rob).value = r.value ∧
        (t.robAt r.rob).exception = (s.robAt r.rob).exception) ∧
      (∀ c, r.exception = some c → (t.robAt r.rob).exception = some c ∧ (t.robAt r.rob).excAddr = r.excAddr)) ∧
    (∀ i, (∀ r, r ∈ carried → r.rob ≠ i) → t.robAt i = s.robAt i)

/-- R120, R121, R122: a broadcast without an exception writes the ROB entry's value and gives it to every valid
waiting slot with its tag; one with an exception marks the entry and wakes no slot; no other slot changes. A result that
belongs to a load makes that load's LSQ entry `done`; every other LSQ entry is as before. -/
def Obligations.BroadcastWakesConsumers : Prop :=
  ∀ (s : State) (r : CdbResult), r.rob < s.rob.length →
    let t : State := s.broadcastOne r
    (t.robAt r.rob).completed = true ∧ (t.robAt r.rob).actualTaken = r.actualTaken ∧
    (t.robAt r.rob).actualNextPc = r.actualNextPc ∧
    (r.exception = none → (t.robAt r.rob).value = r.value) ∧
    (∀ c, r.exception = some c → (t.robAt r.rob).exception = some c ∧ (t.robAt r.rob).excAddr = r.excAddr ∧
      t.rs = s.rs) ∧
    (r.exception = none → ∀ (k : FuClass) (j : Nat) (e : RsEntry), (s.rs.get k)[j]? = some e → e.valid = true →
      ∃ e' : RsEntry, (t.rs.get k)[j]? = some e' ∧ e'.valid = true ∧ e'.seq = e.seq ∧
        (e'.a = if e.a.ready = false ∧ e.a.tag = r.rob then ⟨true, r.value, e.a.tag⟩ else e.a) ∧
        (e'.b = if e.b.ready = false ∧ e.b.tag = r.rob then ⟨true, r.value, e.b.tag⟩ else e.b)) ∧
    (∀ l, r.lsq = some l → t.lsq = s.lsq.map (fun e => if e.rob = l then { e with lstate := .done } else e)) ∧
    (r.lsq = none → t.lsq = s.lsq) ∧
    (∀ i, i ≠ r.rob → t.robAt i = s.robAt i)

/-! ## The D, I and F stages -/

/-- R91, R92, R93, R103: allocation writes the new ROB entry at the old tail, every field as R91 gives it, renames the
destination alone, snapshots the sources as the map stood before the rename, and appends an LSQ entry for a load or a
store and nothing for any other record. The entry of a fetch fault record is complete with `FetchFault` and its pc, and
renames nothing. -/
def Obligations.AllocationRenames : Prop :=
  (∀ (s : State) (f : FetchRec), s.robTail < s.rob.length →
    let t : State := s.allocate f
    (∀ r, f.body = some r →
      t.robAt s.robTail =
        { valid := true, seq := s.seqNext, pc := f.pc, op := some r.op
          dest := if writesRd r.op ∧ r.rd ≠ 0 then some r.rd else none
          value := 0, completed := decide (r.op ∈ [Opcode.nop, .syscall, .halt]), exception := none, excAddr := 0
          isCtl := decide (r.op ∈ [Opcode.beq, .bne, .bgt, .bge, .ble, .blt, .j, .jal, .jr])
          predTaken := f.predTaken, actualTaken := false, fetchedNextPc := f.fetchedNextPc, actualNextPc := f.pc + 4
          ghrSnap := f.ghrSnap, isStore := decide (r.op = .sw), stAddr := 0, stValue := 0
          hasLsq := decide (r.op ∈ [Opcode.lw, .sw]) }) ∧
    (f.body = none →
      t.robAt s.robTail =
        { valid := true, seq := s.seqNext, pc := f.pc, op := none, dest := none, value := 0, completed := true
          exception := some .fetchFault, excAddr := f.pc, isCtl := false, predTaken := f.predTaken
          actualTaken := false, fetchedNextPc := f.fetchedNextPc, actualNextPc := f.pc + 4, ghrSnap := f.ghrSnap
          isStore := false, stAddr := 0, stValue := 0, hasLsq := false }) ∧
    (t.robAt s.robTail).valid = true ∧ (t.robAt s.robTail).seq = s.seqNext ∧ (t.robAt s.robTail).pc = f.pc ∧
    (t.robAt s.robTail).predTaken = f.predTaken ∧ (t.robAt s.robTail).fetchedNextPc = f.fetchedNextPc ∧
    (t.robAt s.robTail).actualNextPc = f.pc + 4 ∧ (t.robAt s.robTail).ghrSnap = f.ghrSnap ∧
    t.robTail = (s.robTail + 1) % s.cfg.robCap ∧ t.robCount = s.robCount + 1 ∧ t.seqNext = s.seqNext + 1 ∧
    (f.body ≠ none → (t.robAt s.robTail).exception = none) ∧
    (f.body = none →
      (t.robAt s.robTail).completed = true ∧ (t.robAt s.robTail).exception = some .fetchFault ∧
      (t.robAt s.robTail).excAddr = f.pc ∧ (t.robAt s.robTail).dest = none ∧
      (∀ i, i ≠ s.robTail → t.robAt i = s.robAt i) ∧ (∀ i, t.regEntry i = s.regEntry i) ∧ t.lsq = s.lsq ∧
      t.dl = s.dl ++ [⟨f, s.seqNext, s.robTail, .const0, .const0⟩])) ∧
  (∀ (s : State) (f : FetchRec) (r : InstrRecord), f.body = some r →
    (s.allocate f).lsq =
      if r.op = .lw ∨ r.op = .sw then
        s.lsq ++ [{ seq := s.seqNext, rob := s.robTail, kind := if r.op = .lw then .load else .store, addrOk := false
                    addr := 0, fault := none, data := 0, lstate := .waitAddr }]
      else s.lsq) ∧
  ∀ (s : State) (f : FetchRec) (r : InstrRecord), f.body = some r → s.robTail < s.rob.length →
    (∀ i, (s.regEntry i).ready = false → (s.regEntry i).tag ≠ s.robTail) →
    let t : State := s.allocate f
    let snapOf : Reg → Snapshot := fun i => if i = 0 then .const0
      else if (s.regEntry i).ready then .arch i else .tag (s.regEntry i).tag (s.robAt (s.regEntry i).tag).seq i
    (t.robAt s.robTail).valid = true ∧ (t.robAt s.robTail).seq = s.seqNext ∧ (t.robAt s.robTail).pc = f.pc ∧
    (t.robAt s.robTail).dest = (if writesRd r.op ∧ r.rd ≠ 0 then some r.rd else none) ∧
    (t.robAt s.robTail).completed = (r.op == .nop || r.op == .syscall || r.op == .halt) ∧
    (∀ i, i ≠ s.robTail → t.robAt i = s.robAt i) ∧
    (∀ i, t.regEntry i =
      if writesRd r.op ∧ r.rd ≠ 0 ∧ i = r.rd then ⟨(s.regEntry i).value, false, s.robTail⟩ else s.regEntry i) ∧
    (∃ d, t.dl = s.dl ++ [d] ∧ d.fetched = f ∧ d.seq = s.seqNext ∧ d.rob = s.robTail ∧
      (d.src1 = if readsRs1 r.op then snapOf r.rs1 else .const0) ∧
      (d.src2 = if readsRs2 r.op then snapOf r.rs2 else .const0))

/-- R90: decode takes records from the head of `FB`, in order, each of which finds room after the ones before it have been
allocated, until it has taken `W_i`, the buffer is empty, or there is no room for the next: it then stalls on a full ROB,
then on a full reservation station, then on a full LSQ, and counts one stall of that cause. With records in the latch it
does nothing. -/
def Obligations.DecodeBackpressure : Prop :=
  (∀ s : State, s.dl ≠ [] → s.decodeStage = s) ∧
  (∀ s : State, s.dl = [] → ∃ taken rest, s.fb = taken ++ rest ∧ taken.length ≤ s.cfg.issueWidth ∧
    (∀ pre f post, taken = pre ++ f :: post → DecodeRoom (s.decodeAll pre) f) ∧
    let u : State := s.decodeAll taken
    u.fb = rest ∧
    (taken.length = s.cfg.issueWidth ∨ rest = [] → s.decodeStage = u) ∧
    (taken.length < s.cfg.issueWidth → ∀ f more, rest = f :: more → ¬ DecodeRoom u f ∧
      (u.cfg.robCap ≤ u.robCount →
        s.decodeStage = { u with metrics := { u.metrics with stallRobFull := u.metrics.stallRobFull + 1 } }) ∧
      (∀ r k, u.robCount < u.cfg.robCap → f.body = some r → opClass r.op = some k →
        u.cfg.rsCap.get k ≤ countValid (u.rs.get k) + u.latched k →
        s.decodeStage = { u with metrics := { u.metrics with stallRsFull := u.metrics.stallRsFull + 1 } }) ∧
      (∀ r, u.robCount < u.cfg.robCap → f.body = some r → r.op = .lw ∨ r.op = .sw →
        countValid u.rs.lsu + u.latched .lsu < u.cfg.rsCap.lsu → u.cfg.lsqCap ≤ u.lsq.length →
        s.decodeStage = { u with metrics := { u.metrics with stallLsqFull := u.metrics.stallLsqFull + 1 } }))) ∧
  ∀ (s : State) (f : FetchRec) (rest : List FetchRec), s.dl = [] → s.fb = f :: rest → 0 < s.cfg.issueWidth →
    (s.cfg.robCap ≤ s.robCount →
      s.decodeStage = { s with metrics := { s.metrics with stallRobFull := s.metrics.stallRobFull + 1 } }) ∧
    (∀ r k, s.robCount < s.cfg.robCap → f.body = some r → opClass r.op = some k →
      s.cfg.rsCap.get k ≤ countValid (s.rs.get k) →
      s.decodeStage = { s with metrics := { s.metrics with stallRsFull := s.metrics.stallRsFull + 1 } }) ∧
    (∀ r, s.robCount < s.cfg.robCap → f.body = some r → (r.op = .lw ∨ r.op = .sw) →
      countValid s.rs.lsu < s.cfg.rsCap.lsu → s.cfg.lsqCap ≤ s.lsq.length →
      s.decodeStage = { s with metrics := { s.metrics with stallLsqFull := s.metrics.stallLsqFull + 1 } })

/-- R64, R65, R106: an access that misses fills the line, so the next access to the same address hits; an access to
an address that hits leaves it present. The access takes the next stamp; a hit stamps its line and a write makes it
dirty; a miss replaces the victim of its set by a fresh line with the address's tag, dirty exactly if the access is a
write; every other line is unchanged. The victim is an invalid line if the set has one, else a line whose lru stamp no
other line undercuts. -/
def Obligations.CacheFillsLine : Prop :=
  (∀ (g : CacheConfig) (c : Cache) (write : Bool) (a : Nat), 1 ≤ g.sets → 1 ≤ g.assoc → CacheShape g c →
    hitWay g (cacheAccess g write c a).2 a ≠ none ∧ CacheShape g (cacheAccess g write c a).2 ∧
    ((cacheAccess g write c a).1 = true ↔ hitWay g c a ≠ none)) ∧
  (∀ (g : CacheConfig) (c : Cache) (write : Bool) (a : Nat), 1 ≤ g.sets → 1 ≤ g.assoc → CacheShape g c →
    let set := a / g.block % g.sets
    let tag := a / g.block / g.sets
    let d : Cache := (cacheAccess g write c a).2
    ∃ ways, c.sets[set]? = some ways ∧ d.stamp = c.stamp + 1 ∧
      (hitWay g c a = none ↔ ∀ l, l ∈ ways → l.valid = true → l.tag ≠ tag) ∧
      (∀ w, hitWay g c a = some w →
        ∃ l, c.lineAt set w = some l ∧ l.valid = true ∧ l.tag = tag ∧
          d.lineAt set w = some ⟨true, tag, l.dirty || write, c.stamp + 1⟩) ∧
      (hitWay g c a = none → d.lineAt set (victimWay ways) = some ⟨true, tag, write, c.stamp + 1⟩) ∧
      (∀ x y, (x, y) ≠ (set, (hitWay g c a).getD (victimWay ways)) → d.lineAt x y = c.lineAt x y)) ∧
  (∀ ways : List CacheLine, ways ≠ [] →
    ∃ l, ways[victimWay ways]? = some l ∧
      ((∃ x, x ∈ ways ∧ x.valid = false) → l.valid = false) ∧
      ((∀ x, x ∈ ways → x.valid = true) → ∀ x, x ∈ ways → l.lru ≤ x.lru))

/-- R103, R104, R106: a fetch that misses the I-cache delivers nothing, fills the line by the read access and stalls
`IC_MISS` ticks. A stalled tick delivers nothing and takes one tick off the stall; it counts an I-cache stall exactly if
its cause is a miss, not if it is a target taken from the record. A fetch that is blocked and not stalled changes
nothing. -/
def Obligations.InstructionCacheMissStalls : Prop :=
  (∀ (s : State) (i : Instr), s.fetch.stall = 0 → s.fetch.blocked = false → 0 < s.cfg.fetchWidth →
    s.fb.length < s.cfg.fbCap → s.instrAt s.fetch.pc = some i →
    hitWay s.cfg.icache s.icache s.fetch.pc.toNat = none →
    s.fetchStage.fb = s.fb ∧ s.fetchStage.fetch.pc = s.fetch.pc ∧
    s.fetchStage.icache = (cacheAccess s.cfg.icache false s.icache s.fetch.pc.toNat).2 ∧
    s.fetchStage.fetch.stall = s.cfg.icache.miss ∧ s.fetchStage.fetch.stallCause = .icacheMiss ∧
    s.fetchStage.metrics.icacheAccesses = s.metrics.icacheAccesses + 1 ∧
    s.fetchStage.metrics.icacheHits = s.metrics.icacheHits) ∧
  (∀ (s : State) (n : Nat), s.fetch.stall = n + 1 → s.fetch.stallCause = .icacheMiss →
    s.fetchStage =
      { s with
        fetch := { s.fetch with stall := n }
        metrics := { s.metrics with stallIcacheMiss := s.metrics.stallIcacheMiss + 1 } }) ∧
  (∀ (s : State) (n : Nat), s.fetch.stall = n + 1 → s.fetch.stallCause = .target →
    s.fetchStage = { s with fetch := { s.fetch with stall := n } }) ∧
  (∀ s : State, s.fetch.stall = 0 → s.fetch.blocked = true → s.fetchStage = s)

/-- R88, R102 to R106: the records fetch delivers are chained by the pc fetch followed. With room in the buffer, at a pc
that is misaligned or outside the text fetch delivers exactly one fetch fault record, reads no cache and is blocked; at
the pc of a record that hits the I-cache it delivers that record first, with its prediction, and it alone if it is
predicted taken. A packet has at most `W_f` records, each delivered with room in the buffer, on an I-cache hit and with
the prediction the predictor then makes; it ends only at `W_f` records, a full buffer, a fetch fault record, a record
predicted taken or an I-cache miss, which fills the line and stalls fetch. A target taken from the record stalls fetch one
tick, of cause target; nothing else stalls it. A packet counts an I-cache access and a hit for each record delivered but
a fault record, one access more for a miss, and nothing else. (The `pred_target` of a fault record is 0: spec/93 item 16,
assumption log 26.) -/
def Obligations.FetchDeliversInPathOrder : Prop :=
  (∀ (s : State) (p : Word) (i : Instr), s.instrAt p = some i ↔
    p.toNat % 4 = 0 ∧ s.cfg.textBase.toNat ≤ p.toNat ∧ p.toNat < s.cfg.textBase.toNat + 4 * s.imem.length ∧
      decode (s.imem.getD ((p.toNat - s.cfg.textBase.toNat) / 4) 0) = .ok i) ∧
  ∀ s : State, s.fetch.stall = 0 → s.fetch.blocked = false →
    (0 < s.cfg.fetchWidth → s.fb.length < s.cfg.fbCap →
      (s.fetch.pc.toNat % 4 ≠ 0 ∨ s.fetch.pc.toNat < s.cfg.textBase.toNat ∨
        s.cfg.textBase.toNat + 4 * s.imem.length ≤ s.fetch.pc.toNat) →
      s.fetchStage.fb = s.fb ++ [⟨none, s.fetch.pc, false, 0, s.fetch.pc + 4, s.pred.ghr⟩] ∧
      s.fetchStage.fetch.blocked = true ∧ s.fetchStage.fetch.pc = s.fetch.pc ∧ s.fetchStage.icache = s.icache) ∧
    (0 < s.cfg.fetchWidth → s.fb.length < s.cfg.fbCap → ∀ i : Instr, s.instrAt s.fetch.pc = some i →
      hitWay s.cfg.icache s.icache s.fetch.pc.toNat ≠ none →
      let q : Prediction := (predict s.cfg s.pred i.record s.fetch.pc).1
      ∃ f rest, s.fetchStage.fb = s.fb ++ f :: rest ∧ f.body = some i.record ∧ f.pc = s.fetch.pc ∧
        f.predTaken = q.taken ∧ f.fetchedNextPc = (if q.taken then q.target else s.fetch.pc + 4) ∧
        f.ghrSnap = s.pred.ghr ∧
        (q.taken = true → rest = [] ∧ s.fetchStage.fetch.pc = q.target ∧
          s.fetchStage.fetch.stall = (if q.stall1 then 1 else 0) ∧
          (q.stall1 = true → s.fetchStage.fetch.stallCause = .target))) ∧
    ∃ new, s.fetchStage.fb = s.fb ++ new ∧
      List.IsChain (fun x y => y.pc = x.fetchedNextPc) new ∧
      (∀ f, new.head? = some f → f.pc = s.fetch.pc) ∧
      (∀ f, f ∈ new → f.fetchedNextPc = if f.predTaken then f.predTarget else f.pc + 4) ∧
      (∀ f, f ∈ new → f.body = none → s.instrAt f.pc = none ∧ s.fetchStage.fetch.blocked = true) ∧
      (∀ f r, f ∈ new → f.body = some r → ∃ i, s.instrAt f.pc = some i ∧ i.record = r) ∧
      (∀ f, new.getLast? = some f → f.body ≠ none → s.fetchStage.fetch.pc = f.fetchedNextPc) ∧
      (s.fetchStage.fetch.blocked = true → ∃ f, new.getLast? = some f ∧ f.body = none) ∧
      new.length ≤ s.cfg.fetchWidth ∧
      (∀ pre f post, new = pre ++ f :: post →
        s.fb.length + pre.length < s.cfg.fbCap ∧ (post ≠ [] → f.body ≠ none ∧ f.predTaken = false) ∧
        f.ghrSnap = (s.predAfter pre).ghr ∧
        ∀ r, f.body = some r → hitWay s.cfg.icache (s.icacheAfter pre) f.pc.toNat ≠ none ∧
          let q : Prediction := (predict s.cfg (s.predAfter pre) r f.pc).1
          f.predTaken = q.taken ∧
          (q.taken = true → f.predTarget = q.target ∧ s.fetchStage.fetch.stall = (if q.stall1 then 1 else 0) ∧
            (q.stall1 = true → s.fetchStage.fetch.stallCause = .target))) ∧
      s.fetchStage.pred = s.predAfter new ∧
      let next : Word := s.fetchStage.fetch.pc
      let ended : Prop := new.length = s.cfg.fetchWidth ∨ s.cfg.fbCap ≤ s.fb.length + new.length ∨
        ∃ f, new.getLast? = some f ∧ (f.body = none ∨ f.predTaken = true)
      let hits : Nat := new.countP (·.body.isSome)
      (ended → s.fetchStage.icache = s.icacheAfter new ∧
        s.fetchStage.metrics =
          { s.metrics with
            icacheAccesses := s.metrics.icacheAccesses + hits, icacheHits := s.metrics.icacheHits + hits } ∧
        ((∀ f, new.getLast? = some f → f.predTaken = false) → s.fetchStage.fetch.stall = 0)) ∧
      (¬ ended → s.instrAt next ≠ none ∧ hitWay s.cfg.icache (s.icacheAfter new) next.toNat = none ∧
        s.fetchStage.icache = (cacheAccess s.cfg.icache false (s.icacheAfter new) next.toNat).2 ∧
        s.fetchStage.fetch.stall = s.cfg.icache.miss ∧ s.fetchStage.fetch.stallCause = .icacheMiss ∧
        s.fetchStage.metrics =
          { s.metrics with
            icacheAccesses := s.metrics.icacheAccesses + hits + 1, icacheHits := s.metrics.icacheHits + hits })

/-! ## Prediction -/

/-- R107, R108, R110: what fetch predicts, by direction, BTB and kind of instruction, and which counter a direction
reads: a conditional branch is predicted taken exactly if the predictor is always-taken or its counter is at least 2;
the target is the BTB's on a hit. A prediction of direction taken reads the BTB, and leaves the predictor that this
lookup leaves; one of direction not taken does not read it, and changes nothing. -/
def Obligations.PredictionRules : Prop :=
  ∀ (c : Config) (p : Predictor) (r : InstrRecord) (pc : Word),
    (∀ h : Nat, (c.bpType = .bimodal → phtIndex c pc h = pc.toNat / 4 % c.bpEntries) ∧
      (c.bpType = .gshare → phtIndex c pc h = (pc.toNat / 4 ^^^ h) % c.bpEntries)) ∧
    (isControl r.op = false → (predict c p r pc).1 = ⟨false, 0, false⟩ ∧ (predict c p r pc).2 = p) ∧
    (isConditional r.op = true → c.bpType ≠ .alwaysTaken →
      (phtAt p (phtIndex c pc p.ghr)).toNat < 2 →
        (predict c p r pc).1 = ⟨false, 0, false⟩ ∧ (predict c p r pc).2 = p) ∧
    (r.op = .jr → btbFind p pc = none → (predict c p r pc).1 = ⟨false, 0, false⟩) ∧
    (r.op = .j ∨ r.op = .jal → btbFind p pc = none → (predict c p r pc).1 = ⟨true, r.imm, true⟩) ∧
    (isConditional r.op = true → (c.bpType = .alwaysTaken ∨ 2 ≤ (phtAt p (phtIndex c pc p.ghr)).toNat) →
      btbFind p pc = none → (predict c p r pc).1 = ⟨true, r.imm, true⟩) ∧
    (isControl r.op = true →
      (isConditional r.op = true → c.bpType = .alwaysTaken ∨ 2 ≤ (phtAt p (phtIndex c pc p.ghr)).toNat) →
      (predict c p r pc).2 = (btbLookup p pc).2 ∧
      ∀ i e, btbFind p pc = some i → p.btb[i]? = some e → (predict c p r pc).1 = ⟨true, e.target, false⟩)

/-- R110: after an insert, a lookup of the same pc gives the inserted target. The insert writes and stamps one entry:
the first one for the pc; where there is none, the first invalid one; where every entry is valid, the first of those
whose lru stamp no other undercuts. A lookup that hits gives the target of the first entry for the pc and stamps that
entry; one that finds none changes nothing. No other entry changes. (That a stamp is the counter after its increment is
the model's choice, assumption log 30; that the first of several entries is taken, assumption log 15.) -/
def Obligations.BtbRemembersTargets : Prop :=
  (∀ (p : Predictor) (pc target : Word), p.btb ≠ [] →
    (btbLookup (btbInsert p pc target) pc).1 = some target ∧
    (btbInsert p pc target).btb.length = p.btb.length ∧
    (∀ i e, i ≠ btbSlot p pc → p.btb[i]? = some e → (btbInsert p pc target).btb[i]? = some e) ∧
    (btbInsert p pc target).btbStamp = p.btbStamp + 1 ∧
    (btbInsert p pc target).btb[btbSlot p pc]? = some ⟨true, pc, target, p.btbStamp + 1⟩ ∧
    ∃ old, p.btb[btbSlot p pc]? = some old ∧
      ((∃ e, e ∈ p.btb ∧ e.valid = true ∧ e.pc = pc) →
        old.valid = true ∧ old.pc = pc ∧
        ∀ e, e ∈ p.btb.take (btbSlot p pc) → ¬ (e.valid = true ∧ e.pc = pc)) ∧
      ((∀ e, e ∈ p.btb → e.valid = true → e.pc ≠ pc) → (∃ e, e ∈ p.btb ∧ e.valid = false) →
        old.valid = false ∧ ∀ e, e ∈ p.btb.take (btbSlot p pc) → e.valid = true) ∧
      ((∀ e, e ∈ p.btb → e.valid = true ∧ e.pc ≠ pc) →
        (∀ e, e ∈ p.btb → old.lru ≤ e.lru) ∧ ∀ e, e ∈ p.btb.take (btbSlot p pc) → old.lru < e.lru)) ∧
  (∀ (p : Predictor) (pc : Word) (i : Nat) (e : BtbEntry), p.btb[i]? = some e → e.valid = true → e.pc = pc →
    (∀ x, x ∈ p.btb.take i → ¬ (x.valid = true ∧ x.pc = pc)) →
    (btbLookup p pc).1 = some e.target ∧ (btbLookup p pc).2.btbStamp = p.btbStamp + 1 ∧
    (btbLookup p pc).2.btb[i]? = some ⟨true, pc, e.target, p.btbStamp + 1⟩ ∧
    (∀ j, j ≠ i → (btbLookup p pc).2.btb[j]? = p.btb[j]?) ∧
    (btbLookup p pc).2.pht = p.pht ∧ (btbLookup p pc).2.ghr = p.ghr) ∧
  (∀ (p : Predictor) (pc : Word), (∀ e, e ∈ p.btb → e.valid = true → e.pc ≠ pc) → btbLookup p pc = (none, p)) ∧
  (∀ (p : Predictor) (pc : Word) (i : Nat), btbFind p pc = some i ↔
    (∃ e, p.btb[i]? = some e ∧ e.valid = true ∧ e.pc = pc) ∧ ∀ x, x ∈ p.btb.take i → ¬ (x.valid = true ∧ x.pc = pc))

/-- R111: an update moves the counter at the index of the prediction one step toward the outcome, saturating at 0 and 3,
and no other counter; always-taken has no counters; a taken outcome puts the pc and the actual next pc in the BTB, a
not-taken one leaves the BTB unchanged. A committed control instruction makes this update, any other none. -/
def Obligations.PredictorTraining : Prop :=
  (∀ (s : State) (e : RobEntry),
    (s.commitOne e).pred = if e.isCtl = true then predictorUpdate s.cfg s.pred e else s.pred) ∧
  ∀ (c : Config) (p : Predictor) (e : RobEntry) (op : Opcode), e.op = some op →
    (∀ i, i ≠ phtIndex c e.pc e.ghrSnap → phtAt (predictorUpdate c p e) i = phtAt p i) ∧
    (e.actualTaken = true → p.btb ≠ [] →
      (btbLookup (predictorUpdate c p e) e.pc).1 = some e.actualNextPc ∧
      (predictorUpdate c p e).btb = (btbInsert p e.pc e.actualNextPc).btb ∧
      (predictorUpdate c p e).btbStamp = (btbInsert p e.pc e.actualNextPc).btbStamp) ∧
    (isConditional op = true → c.bpType ≠ .alwaysTaken → phtIndex c e.pc e.ghrSnap < p.pht.length →
      (phtAt (predictorUpdate c p e) (phtIndex c e.pc e.ghrSnap)).toNat =
        (if e.actualTaken then min 3 ((phtAt p (phtIndex c e.pc e.ghrSnap)).toNat + 1)
         else (phtAt p (phtIndex c e.pc e.ghrSnap)).toNat - 1)) ∧
    (isConditional op = false ∨ c.bpType = .alwaysTaken → (predictorUpdate c p e).pht = p.pht) ∧
    (e.actualTaken = false → (predictorUpdate c p e).btb = p.btb ∧ (predictorUpdate c p e).btbStamp = p.btbStamp) ∧
    (predictorUpdate c p e).ghr = p.ghr

/-! ## Results and equivalence -/

/-- R100, R210: the accuracy is 1 when there was no branch, else the share of correct predictions; `ipc` is
committed instructions per cycle. -/
def Obligations.ResultsRatios : Prop :=
  ∀ s : State, 0 < s.cycle →
    (s.metrics.branchPredictions = 0 → s.results.branchAccuracy = 1) ∧
    (0 < s.metrics.branchPredictions → s.metrics.branchMispredictions ≤ s.metrics.branchPredictions →
      s.results.branchAccuracy * s.metrics.branchPredictions =
        (s.metrics.branchPredictions - s.metrics.branchMispredictions : Nat)) ∧
    s.results.ipc * s.cycle = s.metrics.instructionsCommitted

/-- R99, the headline: from the reset state of any valid configuration and program, after any number of steps of the
pipeline the architectural state is that of the sequential semantics after as many instructions as have been
committed; a halted run halts there too, and a faulted run faults there next with the same cause, pc and address. -/
def Obligations.PipelineEqualsSequential : Prop :=
  ∀ (c : Config) (p : Program) (s₀ : State), State.load c p = .next s₀ →
    ∀ (n : Nat) (s : State), Host.Core.run Sys2Proof.core n s₀ = .next s →
      ∃ t : State,
        Host.Core.run Sys2Proof.core s.metrics.instructionsCommitted s₀.sequentially = .next t ∧
        SameArch s t ∧
        (s.outcome = .halted ↔ t.outcome = .halted) ∧
        (∀ cause pc q addr, s.outcome = .faulted cause pc q addr →
          ∃ u q', step t = .next u ∧ u.outcome = .faulted cause pc q' addr)
end

