-- ==== Sys2Proof/Laws/Config.lean ====
section
/-!
SUPPORT. The defaults of a configuration, and what its validity says.
-/

namespace Sys2Proof

/-- The defaults the spec states (R9, R10, R11): `W_c` and `W_cdb` are `W_i`, `FB_CAP` is `W_f`, data is little-endian,
and overflow traps. -/
theorem Config.stated_defaults (c : Config) :
    let d : Config :=
      { fetchWidth := c.fetchWidth, issueWidth := c.issueWidth, robCap := c.robCap, rsCap := c.rsCap
        lsqCap := c.lsqCap, fuCount := c.fuCount, fuLat := c.fuLat, bpType := c.bpType, bpEntries := c.bpEntries
        bpHistory := c.bpHistory, btbEntries := c.btbEntries, icache := c.icache, dcache := c.dcache
        memSize := c.memSize, maxCycles := c.maxCycles, textBase := c.textBase }
    d.commitWidth = c.issueWidth ∧ d.cdbWidth = c.issueWidth ∧ d.fbCap = c.fetchWidth ∧ d.byteOrder = .little ∧
      d.overflowTraps = true :=
  ⟨rfl, rfl, rfl, rfl, rfl⟩

theorem Config.valid_iff (c : Config) :
    c.valid = true ↔
      1 ≤ c.fetchWidth ∧ 1 ≤ c.issueWidth ∧ 1 ≤ c.commitWidth ∧ 1 ≤ c.cdbWidth ∧ 1 ≤ c.fbCap ∧ 1 ≤ c.robCap ∧
      1 ≤ c.lsqCap ∧ 1 ≤ c.maxCycles ∧ 1 ≤ c.rsCap.alu ∧ 1 ≤ c.rsCap.fpu ∧ 1 ≤ c.rsCap.lsu ∧
      1 ≤ c.fuCount.alu ∧ 1 ≤ c.fuCount.lsu ∧ 1 ≤ c.fuLat.alu ∧ 1 ≤ c.fuLat.fpu ∧ 1 ≤ c.fuLat.lsu ∧
      1 ≤ c.bpEntries ∧ 1 ≤ c.btbEntries ∧ c.icache.valid = true ∧ c.dcache.valid = true ∧
      4 ≤ c.memSize ∧ c.memSize ≤ 2 ^ 32 ∧ c.textBase.toNat % 4 = 0 := by
  simp only [Config.valid, allHold, List.all_cons, List.all_nil, Bool.and_eq_true, decide_eq_true_eq, and_true]

theorem isPowerOfTwo_iff (n : Nat) : isPowerOfTwo n = true ↔ ∃ k, n = 2 ^ k := by
  unfold isPowerOfTwo
  constructor
  · intro h
    simp only [Bool.and_eq_true, bne_iff_ne, beq_iff_eq] at h
    exact ⟨n.log2, h.2.symm⟩
  · rintro ⟨k, rfl⟩
    simp [Nat.log2_two_pow]

theorem CacheConfig.valid_iff (g : CacheConfig) :
    g.valid = true ↔
      isPowerOfTwo g.size = true ∧ isPowerOfTwo g.block = true ∧ isPowerOfTwo g.assoc = true ∧ 4 ≤ g.block ∧
      g.block * g.assoc ≤ g.size ∧ 1 ≤ g.miss := by
  simp only [CacheConfig.valid, allHold, List.all_cons, List.all_nil, Bool.and_eq_true, decide_eq_true_eq, and_true]

end Sys2Proof
end

