-- ==== Sys2Proof/Laws/Encoding.lean ====
section
/-!
SUPPORT. The fields of the word of a record.
-/

namespace Sys2Proof

@[simp] theorem wordOp_word (r : InstrRecord) : wordOp r.word = r.op.number := by
  ext i hi
  simp [InstrRecord.word, wordOp, BitVec.getElem_extractLsb']
  grind

@[simp] theorem wordRd_word (r : InstrRecord) : wordRd r.word = r.rd := by
  ext i hi
  simp [InstrRecord.word, wordRd, BitVec.getElem_extractLsb']
  grind

@[simp] theorem wordRs1_word (r : InstrRecord) : wordRs1 r.word = r.rs1 := by
  ext i hi
  simp [InstrRecord.word, wordRs1, BitVec.getElem_extractLsb']
  grind

@[simp] theorem wordRs2_word (r : InstrRecord) : wordRs2 r.word = r.rs2 := by
  ext i hi
  simp [InstrRecord.word, wordRs2, BitVec.getElem_extractLsb']
  grind

@[simp] theorem wordImm_word (r : InstrRecord) : wordImm r.word = r.imm := by
  ext i hi
  simp [InstrRecord.word, wordImm, BitVec.getElem_extractLsb']
  grind

/-- Bits 40:32 of a record's word, which R73 reserves, are 0. -/
theorem reserved_word (r : InstrRecord) : r.word.extractLsb' 32 9 = 0#9 := by
  ext i hi
  simp [InstrRecord.word, BitVec.getElem_extractLsb']
  grind

/-- The number of an opcode names it. -/
@[simp] theorem Opcode.ofNumber?_number (o : Opcode) : Opcode.ofNumber? o.number = some o := by
  cases o <;> decide

end Sys2Proof
end

