-- ==== Sys2Proof/Laws/State.lean ====
section
/-!
SUPPORT. What each operation of Machine/Ops.lean does to each field of State: one lemma per field, so that no proof
unfolds a record update.
-/

namespace Sys2Proof.Machine

/-! `writeWord` -/
@[simp] theorem State.writeWord_cfg (s : State) (ea v : Word) : (s.writeWord ea v).cfg = s.cfg := rfl
@[simp] theorem State.writeWord_imem (s : State) (ea v : Word) : (s.writeWord ea v).imem = s.imem := rfl
@[simp] theorem State.writeWord_rf (s : State) (ea v : Word) : (s.writeWord ea v).rf = s.rf := rfl
@[simp] theorem State.writeWord_archPc (s : State) (ea v : Word) : (s.writeWord ea v).archPc = s.archPc := rfl
@[simp] theorem State.writeWord_mem (s : State) (ea v : Word) :
    (s.writeWord ea v).mem = memWriteWord s.cfg.byteOrder s.mem ea.toNat v := rfl
@[simp] theorem State.writeWord_rob (s : State) (ea v : Word) : (s.writeWord ea v).rob = s.rob := rfl
@[simp] theorem State.writeWord_robHead (s : State) (ea v : Word) : (s.writeWord ea v).robHead = s.robHead := rfl
@[simp] theorem State.writeWord_robTail (s : State) (ea v : Word) : (s.writeWord ea v).robTail = s.robTail := rfl
@[simp] theorem State.writeWord_robCount (s : State) (ea v : Word) : (s.writeWord ea v).robCount = s.robCount := rfl
@[simp] theorem State.writeWord_rs (s : State) (ea v : Word) : (s.writeWord ea v).rs = s.rs := rfl
@[simp] theorem State.writeWord_fu (s : State) (ea v : Word) : (s.writeWord ea v).fu = s.fu := rfl
@[simp] theorem State.writeWord_cdbq (s : State) (ea v : Word) : (s.writeWord ea v).cdbq = s.cdbq := rfl
@[simp] theorem State.writeWord_lsq (s : State) (ea v : Word) : (s.writeWord ea v).lsq = s.lsq := rfl
@[simp] theorem State.writeWord_mport (s : State) (ea v : Word) : (s.writeWord ea v).mport = s.mport := rfl
@[simp] theorem State.writeWord_fb (s : State) (ea v : Word) : (s.writeWord ea v).fb = s.fb := rfl
@[simp] theorem State.writeWord_dl (s : State) (ea v : Word) : (s.writeWord ea v).dl = s.dl := rfl
@[simp] theorem State.writeWord_seqNext (s : State) (ea v : Word) : (s.writeWord ea v).seqNext = s.seqNext := rfl
@[simp] theorem State.writeWord_cycle (s : State) (ea v : Word) : (s.writeWord ea v).cycle = s.cycle := rfl
@[simp] theorem State.writeWord_outcome (s : State) (ea v : Word) : (s.writeWord ea v).outcome = s.outcome := rfl
@[simp] theorem State.writeWord_metrics (s : State) (ea v : Word) : (s.writeWord ea v).metrics = s.metrics := rfl
@[simp] theorem State.writeWord_fetch (s : State) (ea v : Word) : (s.writeWord ea v).fetch = s.fetch := rfl
@[simp] theorem State.writeWord_pred (s : State) (ea v : Word) : (s.writeWord ea v).pred = s.pred := rfl
@[simp] theorem State.writeWord_icache (s : State) (ea v : Word) : (s.writeWord ea v).icache = s.icache := rfl
@[simp] theorem State.writeWord_dcache (s : State) (ea v : Word) : (s.writeWord ea v).dcache = s.dcache := rfl
@[simp] theorem State.writeWord_driver (s : State) (ea v : Word) : (s.writeWord ea v).driver = s.driver := rfl

/-! `setRegEntry` -/
@[simp] theorem State.setRegEntry_cfg (s : State) (i : Reg) (e : RegEntry) : (s.setRegEntry i e).cfg = s.cfg := rfl
@[simp] theorem State.setRegEntry_imem (s : State) (i : Reg) (e : RegEntry) : (s.setRegEntry i e).imem = s.imem := rfl
@[simp] theorem State.setRegEntry_rf (s : State) (i : Reg) (e : RegEntry) :
    (s.setRegEntry i e).rf = s.rf.set i.toNat e i.isLt := rfl
@[simp] theorem State.setRegEntry_archPc (s : State) (i : Reg) (e : RegEntry) : (s.setRegEntry i e).archPc = s.archPc := rfl
@[simp] theorem State.setRegEntry_mem (s : State) (i : Reg) (e : RegEntry) : (s.setRegEntry i e).mem = s.mem := rfl
@[simp] theorem State.setRegEntry_rob (s : State) (i : Reg) (e : RegEntry) : (s.setRegEntry i e).rob = s.rob := rfl
@[simp] theorem State.setRegEntry_robHead (s : State) (i : Reg) (e : RegEntry) : (s.setRegEntry i e).robHead = s.robHead := rfl
@[simp] theorem State.setRegEntry_robTail (s : State) (i : Reg) (e : RegEntry) : (s.setRegEntry i e).robTail = s.robTail := rfl
@[simp] theorem State.setRegEntry_robCount (s : State) (i : Reg) (e : RegEntry) : (s.setRegEntry i e).robCount = s.robCount := rfl
@[simp] theorem State.setRegEntry_rs (s : State) (i : Reg) (e : RegEntry) : (s.setRegEntry i e).rs = s.rs := rfl
@[simp] theorem State.setRegEntry_fu (s : State) (i : Reg) (e : RegEntry) : (s.setRegEntry i e).fu = s.fu := rfl
@[simp] theorem State.setRegEntry_cdbq (s : State) (i : Reg) (e : RegEntry) : (s.setRegEntry i e).cdbq = s.cdbq := rfl
@[simp] theorem State.setRegEntry_lsq (s : State) (i : Reg) (e : RegEntry) : (s.setRegEntry i e).lsq = s.lsq := rfl
@[simp] theorem State.setRegEntry_mport (s : State) (i : Reg) (e : RegEntry) : (s.setRegEntry i e).mport = s.mport := rfl
@[simp] theorem State.setRegEntry_fb (s : State) (i : Reg) (e : RegEntry) : (s.setRegEntry i e).fb = s.fb := rfl
@[simp] theorem State.setRegEntry_dl (s : State) (i : Reg) (e : RegEntry) : (s.setRegEntry i e).dl = s.dl := rfl
@[simp] theorem State.setRegEntry_seqNext (s : State) (i : Reg) (e : RegEntry) : (s.setRegEntry i e).seqNext = s.seqNext := rfl
@[simp] theorem State.setRegEntry_cycle (s : State) (i : Reg) (e : RegEntry) : (s.setRegEntry i e).cycle = s.cycle := rfl
@[simp] theorem State.setRegEntry_outcome (s : State) (i : Reg) (e : RegEntry) : (s.setRegEntry i e).outcome = s.outcome := rfl
@[simp] theorem State.setRegEntry_metrics (s : State) (i : Reg) (e : RegEntry) : (s.setRegEntry i e).metrics = s.metrics := rfl
@[simp] theorem State.setRegEntry_fetch (s : State) (i : Reg) (e : RegEntry) : (s.setRegEntry i e).fetch = s.fetch := rfl
@[simp] theorem State.setRegEntry_pred (s : State) (i : Reg) (e : RegEntry) : (s.setRegEntry i e).pred = s.pred := rfl
@[simp] theorem State.setRegEntry_icache (s : State) (i : Reg) (e : RegEntry) : (s.setRegEntry i e).icache = s.icache := rfl
@[simp] theorem State.setRegEntry_dcache (s : State) (i : Reg) (e : RegEntry) : (s.setRegEntry i e).dcache = s.dcache := rfl
@[simp] theorem State.setRegEntry_driver (s : State) (i : Reg) (e : RegEntry) : (s.setRegEntry i e).driver = s.driver := rfl

/-! `writeReg` -/
@[simp] theorem State.writeReg_cfg (s : State) (i : Reg) (v : Word) : (s.writeReg i v).cfg = s.cfg := by unfold State.writeReg; split <;> rfl
@[simp] theorem State.writeReg_imem (s : State) (i : Reg) (v : Word) : (s.writeReg i v).imem = s.imem := by unfold State.writeReg; split <;> rfl
@[simp] theorem State.writeReg_archPc (s : State) (i : Reg) (v : Word) : (s.writeReg i v).archPc = s.archPc := by unfold State.writeReg; split <;> rfl
@[simp] theorem State.writeReg_mem (s : State) (i : Reg) (v : Word) : (s.writeReg i v).mem = s.mem := by unfold State.writeReg; split <;> rfl
@[simp] theorem State.writeReg_rob (s : State) (i : Reg) (v : Word) : (s.writeReg i v).rob = s.rob := by unfold State.writeReg; split <;> rfl
@[simp] theorem State.writeReg_robHead (s : State) (i : Reg) (v : Word) : (s.writeReg i v).robHead = s.robHead := by unfold State.writeReg; split <;> rfl
@[simp] theorem State.writeReg_robTail (s : State) (i : Reg) (v : Word) : (s.writeReg i v).robTail = s.robTail := by unfold State.writeReg; split <;> rfl
@[simp] theorem State.writeReg_robCount (s : State) (i : Reg) (v : Word) : (s.writeReg i v).robCount = s.robCount := by unfold State.writeReg; split <;> rfl
@[simp] theorem State.writeReg_rs (s : State) (i : Reg) (v : Word) : (s.writeReg i v).rs = s.rs := by unfold State.writeReg; split <;> rfl
@[simp] theorem State.writeReg_fu (s : State) (i : Reg) (v : Word) : (s.writeReg i v).fu = s.fu := by unfold State.writeReg; split <;> rfl
@[simp] theorem State.writeReg_cdbq (s : State) (i : Reg) (v : Word) : (s.writeReg i v).cdbq = s.cdbq := by unfold State.writeReg; split <;> rfl
@[simp] theorem State.writeReg_lsq (s : State) (i : Reg) (v : Word) : (s.writeReg i v).lsq = s.lsq := by unfold State.writeReg; split <;> rfl
@[simp] theorem State.writeReg_mport (s : State) (i : Reg) (v : Word) : (s.writeReg i v).mport = s.mport := by unfold State.writeReg; split <;> rfl
@[simp] theorem State.writeReg_fb (s : State) (i : Reg) (v : Word) : (s.writeReg i v).fb = s.fb := by unfold State.writeReg; split <;> rfl
@[simp] theorem State.writeReg_dl (s : State) (i : Reg) (v : Word) : (s.writeReg i v).dl = s.dl := by unfold State.writeReg; split <;> rfl
@[simp] theorem State.writeReg_seqNext (s : State) (i : Reg) (v : Word) : (s.writeReg i v).seqNext = s.seqNext := by unfold State.writeReg; split <;> rfl
@[simp] theorem State.writeReg_cycle (s : State) (i : Reg) (v : Word) : (s.writeReg i v).cycle = s.cycle := by unfold State.writeReg; split <;> rfl
@[simp] theorem State.writeReg_outcome (s : State) (i : Reg) (v : Word) : (s.writeReg i v).outcome = s.outcome := by unfold State.writeReg; split <;> rfl
@[simp] theorem State.writeReg_metrics (s : State) (i : Reg) (v : Word) : (s.writeReg i v).metrics = s.metrics := by unfold State.writeReg; split <;> rfl
@[simp] theorem State.writeReg_fetch (s : State) (i : Reg) (v : Word) : (s.writeReg i v).fetch = s.fetch := by unfold State.writeReg; split <;> rfl
@[simp] theorem State.writeReg_pred (s : State) (i : Reg) (v : Word) : (s.writeReg i v).pred = s.pred := by unfold State.writeReg; split <;> rfl
@[simp] theorem State.writeReg_icache (s : State) (i : Reg) (v : Word) : (s.writeReg i v).icache = s.icache := by unfold State.writeReg; split <;> rfl
@[simp] theorem State.writeReg_dcache (s : State) (i : Reg) (v : Word) : (s.writeReg i v).dcache = s.dcache := by unfold State.writeReg; split <;> rfl
@[simp] theorem State.writeReg_driver (s : State) (i : Reg) (v : Word) : (s.writeReg i v).driver = s.driver := by unfold State.writeReg; split <;> rfl

/-! `setRename` -/
@[simp] theorem State.setRename_cfg (s : State) (i : Reg) (r : Bool) (t : Nat) : (s.setRename i r t).cfg = s.cfg := by unfold State.setRename; split <;> rfl
@[simp] theorem State.setRename_imem (s : State) (i : Reg) (r : Bool) (t : Nat) : (s.setRename i r t).imem = s.imem := by unfold State.setRename; split <;> rfl
@[simp] theorem State.setRename_archPc (s : State) (i : Reg) (r : Bool) (t : Nat) : (s.setRename i r t).archPc = s.archPc := by unfold State.setRename; split <;> rfl
@[simp] theorem State.setRename_mem (s : State) (i : Reg) (r : Bool) (t : Nat) : (s.setRename i r t).mem = s.mem := by unfold State.setRename; split <;> rfl
@[simp] theorem State.setRename_rob (s : State) (i : Reg) (r : Bool) (t : Nat) : (s.setRename i r t).rob = s.rob := by unfold State.setRename; split <;> rfl
@[simp] theorem State.setRename_robHead (s : State) (i : Reg) (r : Bool) (t : Nat) : (s.setRename i r t).robHead = s.robHead := by unfold State.setRename; split <;> rfl
@[simp] theorem State.setRename_robTail (s : State) (i : Reg) (r : Bool) (t : Nat) : (s.setRename i r t).robTail = s.robTail := by unfold State.setRename; split <;> rfl
@[simp] theorem State.setRename_robCount (s : State) (i : Reg) (r : Bool) (t : Nat) : (s.setRename i r t).robCount = s.robCount := by unfold State.setRename; split <;> rfl
@[simp] theorem State.setRename_rs (s : State) (i : Reg) (r : Bool) (t : Nat) : (s.setRename i r t).rs = s.rs := by unfold State.setRename; split <;> rfl
@[simp] theorem State.setRename_fu (s : State) (i : Reg) (r : Bool) (t : Nat) : (s.setRename i r t).fu = s.fu := by unfold State.setRename; split <;> rfl
@[simp] theorem State.setRename_cdbq (s : State) (i : Reg) (r : Bool) (t : Nat) : (s.setRename i r t).cdbq = s.cdbq := by unfold State.setRename; split <;> rfl
@[simp] theorem State.setRename_lsq (s : State) (i : Reg) (r : Bool) (t : Nat) : (s.setRename i r t).lsq = s.lsq := by unfold State.setRename; split <;> rfl
@[simp] theorem State.setRename_mport (s : State) (i : Reg) (r : Bool) (t : Nat) : (s.setRename i r t).mport = s.mport := by unfold State.setRename; split <;> rfl
@[simp] theorem State.setRename_fb (s : State) (i : Reg) (r : Bool) (t : Nat) : (s.setRename i r t).fb = s.fb := by unfold State.setRename; split <;> rfl
@[simp] theorem State.setRename_dl (s : State) (i : Reg) (r : Bool) (t : Nat) : (s.setRename i r t).dl = s.dl := by unfold State.setRename; split <;> rfl
@[simp] theorem State.setRename_seqNext (s : State) (i : Reg) (r : Bool) (t : Nat) : (s.setRename i r t).seqNext = s.seqNext := by unfold State.setRename; split <;> rfl
@[simp] theorem State.setRename_cycle (s : State) (i : Reg) (r : Bool) (t : Nat) : (s.setRename i r t).cycle = s.cycle := by unfold State.setRename; split <;> rfl
@[simp] theorem State.setRename_outcome (s : State) (i : Reg) (r : Bool) (t : Nat) : (s.setRename i r t).outcome = s.outcome := by unfold State.setRename; split <;> rfl
@[simp] theorem State.setRename_metrics (s : State) (i : Reg) (r : Bool) (t : Nat) : (s.setRename i r t).metrics = s.metrics := by unfold State.setRename; split <;> rfl
@[simp] theorem State.setRename_fetch (s : State) (i : Reg) (r : Bool) (t : Nat) : (s.setRename i r t).fetch = s.fetch := by unfold State.setRename; split <;> rfl
@[simp] theorem State.setRename_pred (s : State) (i : Reg) (r : Bool) (t : Nat) : (s.setRename i r t).pred = s.pred := by unfold State.setRename; split <;> rfl
@[simp] theorem State.setRename_icache (s : State) (i : Reg) (r : Bool) (t : Nat) : (s.setRename i r t).icache = s.icache := by unfold State.setRename; split <;> rfl
@[simp] theorem State.setRename_dcache (s : State) (i : Reg) (r : Bool) (t : Nat) : (s.setRename i r t).dcache = s.dcache := by unfold State.setRename; split <;> rfl
@[simp] theorem State.setRename_driver (s : State) (i : Reg) (r : Bool) (t : Nat) : (s.setRename i r t).driver = s.driver := by unfold State.setRename; split <;> rfl

/-! `surface` -/
@[simp] theorem State.surface_cfg (s : State) (c : Cause) (pc : Word) (q : Nat) (addr : Word) : (s.surface c pc q addr).cfg = s.cfg := rfl
@[simp] theorem State.surface_imem (s : State) (c : Cause) (pc : Word) (q : Nat) (addr : Word) : (s.surface c pc q addr).imem = s.imem := rfl
@[simp] theorem State.surface_rf (s : State) (c : Cause) (pc : Word) (q : Nat) (addr : Word) : (s.surface c pc q addr).rf = s.rf := rfl
@[simp] theorem State.surface_archPc (s : State) (c : Cause) (pc : Word) (q : Nat) (addr : Word) : (s.surface c pc q addr).archPc = s.archPc := rfl
@[simp] theorem State.surface_mem (s : State) (c : Cause) (pc : Word) (q : Nat) (addr : Word) : (s.surface c pc q addr).mem = s.mem := rfl
@[simp] theorem State.surface_rob (s : State) (c : Cause) (pc : Word) (q : Nat) (addr : Word) : (s.surface c pc q addr).rob = s.rob := rfl
@[simp] theorem State.surface_robHead (s : State) (c : Cause) (pc : Word) (q : Nat) (addr : Word) : (s.surface c pc q addr).robHead = s.robHead := rfl
@[simp] theorem State.surface_robTail (s : State) (c : Cause) (pc : Word) (q : Nat) (addr : Word) : (s.surface c pc q addr).robTail = s.robTail := rfl
@[simp] theorem State.surface_robCount (s : State) (c : Cause) (pc : Word) (q : Nat) (addr : Word) : (s.surface c pc q addr).robCount = s.robCount := rfl
@[simp] theorem State.surface_rs (s : State) (c : Cause) (pc : Word) (q : Nat) (addr : Word) : (s.surface c pc q addr).rs = s.rs := rfl
@[simp] theorem State.surface_fu (s : State) (c : Cause) (pc : Word) (q : Nat) (addr : Word) : (s.surface c pc q addr).fu = s.fu := rfl
@[simp] theorem State.surface_cdbq (s : State) (c : Cause) (pc : Word) (q : Nat) (addr : Word) : (s.surface c pc q addr).cdbq = s.cdbq := rfl
@[simp] theorem State.surface_lsq (s : State) (c : Cause) (pc : Word) (q : Nat) (addr : Word) : (s.surface c pc q addr).lsq = s.lsq := rfl
@[simp] theorem State.surface_mport (s : State) (c : Cause) (pc : Word) (q : Nat) (addr : Word) : (s.surface c pc q addr).mport = s.mport := rfl
@[simp] theorem State.surface_fb (s : State) (c : Cause) (pc : Word) (q : Nat) (addr : Word) : (s.surface c pc q addr).fb = s.fb := rfl
@[simp] theorem State.surface_dl (s : State) (c : Cause) (pc : Word) (q : Nat) (addr : Word) : (s.surface c pc q addr).dl = s.dl := rfl
@[simp] theorem State.surface_seqNext (s : State) (c : Cause) (pc : Word) (q : Nat) (addr : Word) : (s.surface c pc q addr).seqNext = s.seqNext := rfl
@[simp] theorem State.surface_cycle (s : State) (c : Cause) (pc : Word) (q : Nat) (addr : Word) : (s.surface c pc q addr).cycle = s.cycle := rfl
@[simp] theorem State.surface_outcome (s : State) (c : Cause) (pc : Word) (q : Nat) (addr : Word) :
    (s.surface c pc q addr).outcome = .faulted c pc q addr := rfl
@[simp] theorem State.surface_metrics (s : State) (c : Cause) (pc : Word) (q : Nat) (addr : Word) : (s.surface c pc q addr).metrics = s.metrics := rfl
@[simp] theorem State.surface_fetch (s : State) (c : Cause) (pc : Word) (q : Nat) (addr : Word) : (s.surface c pc q addr).fetch = s.fetch := rfl
@[simp] theorem State.surface_pred (s : State) (c : Cause) (pc : Word) (q : Nat) (addr : Word) : (s.surface c pc q addr).pred = s.pred := rfl
@[simp] theorem State.surface_icache (s : State) (c : Cause) (pc : Word) (q : Nat) (addr : Word) : (s.surface c pc q addr).icache = s.icache := rfl
@[simp] theorem State.surface_dcache (s : State) (c : Cause) (pc : Word) (q : Nat) (addr : Word) : (s.surface c pc q addr).dcache = s.dcache := rfl
@[simp] theorem State.surface_driver (s : State) (c : Cause) (pc : Word) (q : Nat) (addr : Word) : (s.surface c pc q addr).driver = s.driver := rfl

/-! `halt` -/
@[simp] theorem State.halt_cfg (s : State) : (s.halt).cfg = s.cfg := rfl
@[simp] theorem State.halt_imem (s : State) : (s.halt).imem = s.imem := rfl
@[simp] theorem State.halt_rf (s : State) : (s.halt).rf = s.rf := rfl
@[simp] theorem State.halt_archPc (s : State) : (s.halt).archPc = s.archPc := rfl
@[simp] theorem State.halt_mem (s : State) : (s.halt).mem = s.mem := rfl
@[simp] theorem State.halt_rob (s : State) : (s.halt).rob = s.rob := rfl
@[simp] theorem State.halt_robHead (s : State) : (s.halt).robHead = s.robHead := rfl
@[simp] theorem State.halt_robTail (s : State) : (s.halt).robTail = s.robTail := rfl
@[simp] theorem State.halt_robCount (s : State) : (s.halt).robCount = s.robCount := rfl
@[simp] theorem State.halt_rs (s : State) : (s.halt).rs = s.rs := rfl
@[simp] theorem State.halt_fu (s : State) : (s.halt).fu = s.fu := rfl
@[simp] theorem State.halt_cdbq (s : State) : (s.halt).cdbq = s.cdbq := rfl
@[simp] theorem State.halt_lsq (s : State) : (s.halt).lsq = s.lsq := rfl
@[simp] theorem State.halt_mport (s : State) : (s.halt).mport = s.mport := rfl
@[simp] theorem State.halt_fb (s : State) : (s.halt).fb = s.fb := rfl
@[simp] theorem State.halt_dl (s : State) : (s.halt).dl = s.dl := rfl
@[simp] theorem State.halt_seqNext (s : State) : (s.halt).seqNext = s.seqNext := rfl
@[simp] theorem State.halt_cycle (s : State) : (s.halt).cycle = s.cycle := rfl
@[simp] theorem State.halt_outcome (s : State) :
    (s.halt).outcome = .halted := rfl
@[simp] theorem State.halt_metrics (s : State) : (s.halt).metrics = s.metrics := rfl
@[simp] theorem State.halt_fetch (s : State) : (s.halt).fetch = s.fetch := rfl
@[simp] theorem State.halt_pred (s : State) : (s.halt).pred = s.pred := rfl
@[simp] theorem State.halt_icache (s : State) : (s.halt).icache = s.icache := rfl
@[simp] theorem State.halt_dcache (s : State) : (s.halt).dcache = s.dcache := rfl
@[simp] theorem State.halt_driver (s : State) : (s.halt).driver = s.driver := rfl

/-! `raiseSequential` -/
@[simp] theorem State.raiseSequential_cfg (s : State) (c : Cause) (addr : Word) : (s.raiseSequential c addr).cfg = s.cfg := rfl
@[simp] theorem State.raiseSequential_imem (s : State) (c : Cause) (addr : Word) : (s.raiseSequential c addr).imem = s.imem := rfl
@[simp] theorem State.raiseSequential_rf (s : State) (c : Cause) (addr : Word) : (s.raiseSequential c addr).rf = s.rf := rfl
@[simp] theorem State.raiseSequential_archPc (s : State) (c : Cause) (addr : Word) : (s.raiseSequential c addr).archPc = s.archPc := rfl
@[simp] theorem State.raiseSequential_mem (s : State) (c : Cause) (addr : Word) : (s.raiseSequential c addr).mem = s.mem := rfl
@[simp] theorem State.raiseSequential_rob (s : State) (c : Cause) (addr : Word) : (s.raiseSequential c addr).rob = s.rob := rfl
@[simp] theorem State.raiseSequential_robHead (s : State) (c : Cause) (addr : Word) : (s.raiseSequential c addr).robHead = s.robHead := rfl
@[simp] theorem State.raiseSequential_robTail (s : State) (c : Cause) (addr : Word) : (s.raiseSequential c addr).robTail = s.robTail := rfl
@[simp] theorem State.raiseSequential_robCount (s : State) (c : Cause) (addr : Word) : (s.raiseSequential c addr).robCount = s.robCount := rfl
@[simp] theorem State.raiseSequential_rs (s : State) (c : Cause) (addr : Word) : (s.raiseSequential c addr).rs = s.rs := rfl
@[simp] theorem State.raiseSequential_fu (s : State) (c : Cause) (addr : Word) : (s.raiseSequential c addr).fu = s.fu := rfl
@[simp] theorem State.raiseSequential_cdbq (s : State) (c : Cause) (addr : Word) : (s.raiseSequential c addr).cdbq = s.cdbq := rfl
@[simp] theorem State.raiseSequential_lsq (s : State) (c : Cause) (addr : Word) : (s.raiseSequential c addr).lsq = s.lsq := rfl
@[simp] theorem State.raiseSequential_mport (s : State) (c : Cause) (addr : Word) : (s.raiseSequential c addr).mport = s.mport := rfl
@[simp] theorem State.raiseSequential_fb (s : State) (c : Cause) (addr : Word) : (s.raiseSequential c addr).fb = s.fb := rfl
@[simp] theorem State.raiseSequential_dl (s : State) (c : Cause) (addr : Word) : (s.raiseSequential c addr).dl = s.dl := rfl
@[simp] theorem State.raiseSequential_seqNext (s : State) (c : Cause) (addr : Word) : (s.raiseSequential c addr).seqNext = s.seqNext := rfl
@[simp] theorem State.raiseSequential_cycle (s : State) (c : Cause) (addr : Word) : (s.raiseSequential c addr).cycle = s.cycle := rfl
@[simp] theorem State.raiseSequential_outcome (s : State) (c : Cause) (addr : Word) :
    (s.raiseSequential c addr).outcome = .faulted c s.archPc s.seqNext addr := rfl
@[simp] theorem State.raiseSequential_metrics (s : State) (c : Cause) (addr : Word) : (s.raiseSequential c addr).metrics = s.metrics := rfl
@[simp] theorem State.raiseSequential_fetch (s : State) (c : Cause) (addr : Word) : (s.raiseSequential c addr).fetch = s.fetch := rfl
@[simp] theorem State.raiseSequential_pred (s : State) (c : Cause) (addr : Word) : (s.raiseSequential c addr).pred = s.pred := rfl
@[simp] theorem State.raiseSequential_icache (s : State) (c : Cause) (addr : Word) : (s.raiseSequential c addr).icache = s.icache := rfl
@[simp] theorem State.raiseSequential_dcache (s : State) (c : Cause) (addr : Word) : (s.raiseSequential c addr).dcache = s.dcache := rfl
@[simp] theorem State.raiseSequential_driver (s : State) (c : Cause) (addr : Word) : (s.raiseSequential c addr).driver = s.driver := rfl

/-! `retireSequential` -/
@[simp] theorem State.retireSequential_cfg (s : State) (rd : Reg) (v next : Word) : (s.retireSequential rd v next).cfg = s.cfg := by simp [State.retireSequential]
@[simp] theorem State.retireSequential_imem (s : State) (rd : Reg) (v next : Word) : (s.retireSequential rd v next).imem = s.imem := by simp [State.retireSequential]
@[simp] theorem State.retireSequential_rf (s : State) (rd : Reg) (v next : Word) :
    (s.retireSequential rd v next).rf = (s.writeReg rd v).rf := rfl
@[simp] theorem State.retireSequential_archPc (s : State) (rd : Reg) (v next : Word) :
    (s.retireSequential rd v next).archPc = next := rfl
@[simp] theorem State.retireSequential_mem (s : State) (rd : Reg) (v next : Word) : (s.retireSequential rd v next).mem = s.mem := by simp [State.retireSequential]
@[simp] theorem State.retireSequential_rob (s : State) (rd : Reg) (v next : Word) : (s.retireSequential rd v next).rob = s.rob := by simp [State.retireSequential]
@[simp] theorem State.retireSequential_robHead (s : State) (rd : Reg) (v next : Word) : (s.retireSequential rd v next).robHead = s.robHead := by simp [State.retireSequential]
@[simp] theorem State.retireSequential_robTail (s : State) (rd : Reg) (v next : Word) : (s.retireSequential rd v next).robTail = s.robTail := by simp [State.retireSequential]
@[simp] theorem State.retireSequential_robCount (s : State) (rd : Reg) (v next : Word) : (s.retireSequential rd v next).robCount = s.robCount := by simp [State.retireSequential]
@[simp] theorem State.retireSequential_rs (s : State) (rd : Reg) (v next : Word) : (s.retireSequential rd v next).rs = s.rs := by simp [State.retireSequential]
@[simp] theorem State.retireSequential_fu (s : State) (rd : Reg) (v next : Word) : (s.retireSequential rd v next).fu = s.fu := by simp [State.retireSequential]
@[simp] theorem State.retireSequential_cdbq (s : State) (rd : Reg) (v next : Word) : (s.retireSequential rd v next).cdbq = s.cdbq := by simp [State.retireSequential]
@[simp] theorem State.retireSequential_lsq (s : State) (rd : Reg) (v next : Word) : (s.retireSequential rd v next).lsq = s.lsq := by simp [State.retireSequential]
@[simp] theorem State.retireSequential_mport (s : State) (rd : Reg) (v next : Word) : (s.retireSequential rd v next).mport = s.mport := by simp [State.retireSequential]
@[simp] theorem State.retireSequential_fb (s : State) (rd : Reg) (v next : Word) : (s.retireSequential rd v next).fb = s.fb := by simp [State.retireSequential]
@[simp] theorem State.retireSequential_dl (s : State) (rd : Reg) (v next : Word) : (s.retireSequential rd v next).dl = s.dl := by simp [State.retireSequential]
@[simp] theorem State.retireSequential_seqNext (s : State) (rd : Reg) (v next : Word) :
    (s.retireSequential rd v next).seqNext = s.seqNext + 1 := rfl
@[simp] theorem State.retireSequential_cycle (s : State) (rd : Reg) (v next : Word) : (s.retireSequential rd v next).cycle = s.cycle := by simp [State.retireSequential]
@[simp] theorem State.retireSequential_outcome (s : State) (rd : Reg) (v next : Word) : (s.retireSequential rd v next).outcome = s.outcome := by simp [State.retireSequential]
@[simp] theorem State.retireSequential_metrics (s : State) (rd : Reg) (v next : Word) :
    (s.retireSequential rd v next).metrics = { s.metrics with instructionsCommitted := s.metrics.instructionsCommitted + 1 } := rfl
@[simp] theorem State.retireSequential_fetch (s : State) (rd : Reg) (v next : Word) : (s.retireSequential rd v next).fetch = s.fetch := by simp [State.retireSequential]
@[simp] theorem State.retireSequential_pred (s : State) (rd : Reg) (v next : Word) : (s.retireSequential rd v next).pred = s.pred := by simp [State.retireSequential]
@[simp] theorem State.retireSequential_icache (s : State) (rd : Reg) (v next : Word) : (s.retireSequential rd v next).icache = s.icache := by simp [State.retireSequential]
@[simp] theorem State.retireSequential_dcache (s : State) (rd : Reg) (v next : Word) : (s.retireSequential rd v next).dcache = s.dcache := by simp [State.retireSequential]
@[simp] theorem State.retireSequential_driver (s : State) (rd : Reg) (v next : Word) : (s.retireSequential rd v next).driver = s.driver := by simp [State.retireSequential]

/-! `updateRob` -/
@[simp] theorem State.updateRob_cfg (s : State) (t : Nat) (f : RobEntry → RobEntry) : (s.updateRob t f).cfg = s.cfg := rfl
@[simp] theorem State.updateRob_imem (s : State) (t : Nat) (f : RobEntry → RobEntry) : (s.updateRob t f).imem = s.imem := rfl
@[simp] theorem State.updateRob_rf (s : State) (t : Nat) (f : RobEntry → RobEntry) : (s.updateRob t f).rf = s.rf := rfl
@[simp] theorem State.updateRob_archPc (s : State) (t : Nat) (f : RobEntry → RobEntry) : (s.updateRob t f).archPc = s.archPc := rfl
@[simp] theorem State.updateRob_mem (s : State) (t : Nat) (f : RobEntry → RobEntry) : (s.updateRob t f).mem = s.mem := rfl
@[simp] theorem State.updateRob_rob (s : State) (t : Nat) (f : RobEntry → RobEntry) :
    (s.updateRob t f).rob = updateAt f s.rob t := rfl
@[simp] theorem State.updateRob_robHead (s : State) (t : Nat) (f : RobEntry → RobEntry) : (s.updateRob t f).robHead = s.robHead := rfl
@[simp] theorem State.updateRob_robTail (s : State) (t : Nat) (f : RobEntry → RobEntry) : (s.updateRob t f).robTail = s.robTail := rfl
@[simp] theorem State.updateRob_robCount (s : State) (t : Nat) (f : RobEntry → RobEntry) : (s.updateRob t f).robCount = s.robCount := rfl
@[simp] theorem State.updateRob_rs (s : State) (t : Nat) (f : RobEntry → RobEntry) : (s.updateRob t f).rs = s.rs := rfl
@[simp] theorem State.updateRob_fu (s : State) (t : Nat) (f : RobEntry → RobEntry) : (s.updateRob t f).fu = s.fu := rfl
@[simp] theorem State.updateRob_cdbq (s : State) (t : Nat) (f : RobEntry → RobEntry) : (s.updateRob t f).cdbq = s.cdbq := rfl
@[simp] theorem State.updateRob_lsq (s : State) (t : Nat) (f : RobEntry → RobEntry) : (s.updateRob t f).lsq = s.lsq := rfl
@[simp] theorem State.updateRob_mport (s : State) (t : Nat) (f : RobEntry → RobEntry) : (s.updateRob t f).mport = s.mport := rfl
@[simp] theorem State.updateRob_fb (s : State) (t : Nat) (f : RobEntry → RobEntry) : (s.updateRob t f).fb = s.fb := rfl
@[simp] theorem State.updateRob_dl (s : State) (t : Nat) (f : RobEntry → RobEntry) : (s.updateRob t f).dl = s.dl := rfl
@[simp] theorem State.updateRob_seqNext (s : State) (t : Nat) (f : RobEntry → RobEntry) : (s.updateRob t f).seqNext = s.seqNext := rfl
@[simp] theorem State.updateRob_cycle (s : State) (t : Nat) (f : RobEntry → RobEntry) : (s.updateRob t f).cycle = s.cycle := rfl
@[simp] theorem State.updateRob_outcome (s : State) (t : Nat) (f : RobEntry → RobEntry) : (s.updateRob t f).outcome = s.outcome := rfl
@[simp] theorem State.updateRob_metrics (s : State) (t : Nat) (f : RobEntry → RobEntry) : (s.updateRob t f).metrics = s.metrics := rfl
@[simp] theorem State.updateRob_fetch (s : State) (t : Nat) (f : RobEntry → RobEntry) : (s.updateRob t f).fetch = s.fetch := rfl
@[simp] theorem State.updateRob_pred (s : State) (t : Nat) (f : RobEntry → RobEntry) : (s.updateRob t f).pred = s.pred := rfl
@[simp] theorem State.updateRob_icache (s : State) (t : Nat) (f : RobEntry → RobEntry) : (s.updateRob t f).icache = s.icache := rfl
@[simp] theorem State.updateRob_dcache (s : State) (t : Nat) (f : RobEntry → RobEntry) : (s.updateRob t f).dcache = s.dcache := rfl
@[simp] theorem State.updateRob_driver (s : State) (t : Nat) (f : RobEntry → RobEntry) : (s.updateRob t f).driver = s.driver := rfl

/-! `count` -/
@[simp] theorem State.count_cfg (s : State) (f : Metrics → Metrics) : (s.count f).cfg = s.cfg := rfl
@[simp] theorem State.count_imem (s : State) (f : Metrics → Metrics) : (s.count f).imem = s.imem := rfl
@[simp] theorem State.count_rf (s : State) (f : Metrics → Metrics) : (s.count f).rf = s.rf := rfl
@[simp] theorem State.count_archPc (s : State) (f : Metrics → Metrics) : (s.count f).archPc = s.archPc := rfl
@[simp] theorem State.count_mem (s : State) (f : Metrics → Metrics) : (s.count f).mem = s.mem := rfl
@[simp] theorem State.count_rob (s : State) (f : Metrics → Metrics) : (s.count f).rob = s.rob := rfl
@[simp] theorem State.count_robHead (s : State) (f : Metrics → Metrics) : (s.count f).robHead = s.robHead := rfl
@[simp] theorem State.count_robTail (s : State) (f : Metrics → Metrics) : (s.count f).robTail = s.robTail := rfl
@[simp] theorem State.count_robCount (s : State) (f : Metrics → Metrics) : (s.count f).robCount = s.robCount := rfl
@[simp] theorem State.count_rs (s : State) (f : Metrics → Metrics) : (s.count f).rs = s.rs := rfl
@[simp] theorem State.count_fu (s : State) (f : Metrics → Metrics) : (s.count f).fu = s.fu := rfl
@[simp] theorem State.count_cdbq (s : State) (f : Metrics → Metrics) : (s.count f).cdbq = s.cdbq := rfl
@[simp] theorem State.count_lsq (s : State) (f : Metrics → Metrics) : (s.count f).lsq = s.lsq := rfl
@[simp] theorem State.count_mport (s : State) (f : Metrics → Metrics) : (s.count f).mport = s.mport := rfl
@[simp] theorem State.count_fb (s : State) (f : Metrics → Metrics) : (s.count f).fb = s.fb := rfl
@[simp] theorem State.count_dl (s : State) (f : Metrics → Metrics) : (s.count f).dl = s.dl := rfl
@[simp] theorem State.count_seqNext (s : State) (f : Metrics → Metrics) : (s.count f).seqNext = s.seqNext := rfl
@[simp] theorem State.count_cycle (s : State) (f : Metrics → Metrics) : (s.count f).cycle = s.cycle := rfl
@[simp] theorem State.count_outcome (s : State) (f : Metrics → Metrics) : (s.count f).outcome = s.outcome := rfl
@[simp] theorem State.count_metrics (s : State) (f : Metrics → Metrics) :
    (s.count f).metrics = f s.metrics := rfl
@[simp] theorem State.count_fetch (s : State) (f : Metrics → Metrics) : (s.count f).fetch = s.fetch := rfl
@[simp] theorem State.count_pred (s : State) (f : Metrics → Metrics) : (s.count f).pred = s.pred := rfl
@[simp] theorem State.count_icache (s : State) (f : Metrics → Metrics) : (s.count f).icache = s.icache := rfl
@[simp] theorem State.count_dcache (s : State) (f : Metrics → Metrics) : (s.count f).dcache = s.dcache := rfl
@[simp] theorem State.count_driver (s : State) (f : Metrics → Metrics) : (s.count f).driver = s.driver := rfl

end Sys2Proof.Machine
end

