-- ==== Sys2Proof/Laws/Stages.lean ====
section
/-!
SUPPORT. What each update of the pipeline's stages does to each field of State it leaves alone or sets outright.
-/

namespace Sys2Proof.Machine

/-! `commitFree` -/
@[simp] theorem State.commitFree_cfg (s : State) (h : Nat) (e : RobEntry) : (s.commitFree h e).cfg = s.cfg := rfl
@[simp] theorem State.commitFree_imem (s : State) (h : Nat) (e : RobEntry) : (s.commitFree h e).imem = s.imem := rfl
@[simp] theorem State.commitFree_rf (s : State) (h : Nat) (e : RobEntry) : (s.commitFree h e).rf = s.rf := rfl
@[simp] theorem State.commitFree_archPc (s : State) (h : Nat) (e : RobEntry) :
    (s.commitFree h e).archPc = e.actualNextPc := rfl
@[simp] theorem State.commitFree_mem (s : State) (h : Nat) (e : RobEntry) : (s.commitFree h e).mem = s.mem := rfl
@[simp] theorem State.commitFree_rob (s : State) (h : Nat) (e : RobEntry) :
    (s.commitFree h e).rob = updateAt (fun x => { x with valid := false }) s.rob h := rfl
@[simp] theorem State.commitFree_robHead (s : State) (h : Nat) (e : RobEntry) :
    (s.commitFree h e).robHead = (h + 1) % s.cfg.robCap := rfl
@[simp] theorem State.commitFree_robTail (s : State) (h : Nat) (e : RobEntry) : (s.commitFree h e).robTail = s.robTail := rfl
@[simp] theorem State.commitFree_robCount (s : State) (h : Nat) (e : RobEntry) :
    (s.commitFree h e).robCount = s.robCount - 1 := rfl
@[simp] theorem State.commitFree_rs (s : State) (h : Nat) (e : RobEntry) : (s.commitFree h e).rs = s.rs := rfl
@[simp] theorem State.commitFree_fu (s : State) (h : Nat) (e : RobEntry) : (s.commitFree h e).fu = s.fu := rfl
@[simp] theorem State.commitFree_cdbq (s : State) (h : Nat) (e : RobEntry) : (s.commitFree h e).cdbq = s.cdbq := rfl
@[simp] theorem State.commitFree_lsq (s : State) (h : Nat) (e : RobEntry) : (s.commitFree h e).lsq = s.lsq := rfl
@[simp] theorem State.commitFree_mport (s : State) (h : Nat) (e : RobEntry) : (s.commitFree h e).mport = s.mport := rfl
@[simp] theorem State.commitFree_fb (s : State) (h : Nat) (e : RobEntry) : (s.commitFree h e).fb = s.fb := rfl
@[simp] theorem State.commitFree_dl (s : State) (h : Nat) (e : RobEntry) : (s.commitFree h e).dl = s.dl := rfl
@[simp] theorem State.commitFree_seqNext (s : State) (h : Nat) (e : RobEntry) : (s.commitFree h e).seqNext = s.seqNext := rfl
@[simp] theorem State.commitFree_cycle (s : State) (h : Nat) (e : RobEntry) : (s.commitFree h e).cycle = s.cycle := rfl
@[simp] theorem State.commitFree_outcome (s : State) (h : Nat) (e : RobEntry) : (s.commitFree h e).outcome = s.outcome := rfl
@[simp] theorem State.commitFree_metrics (s : State) (h : Nat) (e : RobEntry) :
    (s.commitFree h e).metrics = { s.metrics with instructionsCommitted := s.metrics.instructionsCommitted + 1 } := rfl
@[simp] theorem State.commitFree_fetch (s : State) (h : Nat) (e : RobEntry) : (s.commitFree h e).fetch = s.fetch := rfl
@[simp] theorem State.commitFree_pred (s : State) (h : Nat) (e : RobEntry) : (s.commitFree h e).pred = s.pred := rfl
@[simp] theorem State.commitFree_icache (s : State) (h : Nat) (e : RobEntry) : (s.commitFree h e).icache = s.icache := rfl
@[simp] theorem State.commitFree_dcache (s : State) (h : Nat) (e : RobEntry) : (s.commitFree h e).dcache = s.dcache := rfl
@[simp] theorem State.commitFree_driver (s : State) (h : Nat) (e : RobEntry) : (s.commitFree h e).driver = s.driver := rfl

/-! `commitControl` -/
@[simp] theorem State.commitControl_cfg (s : State) (e : RobEntry) : (s.commitControl e).cfg = s.cfg := by unfold State.commitControl; split <;> rfl
@[simp] theorem State.commitControl_imem (s : State) (e : RobEntry) : (s.commitControl e).imem = s.imem := by unfold State.commitControl; split <;> rfl
@[simp] theorem State.commitControl_rf (s : State) (e : RobEntry) : (s.commitControl e).rf = s.rf := by unfold State.commitControl; split <;> rfl
@[simp] theorem State.commitControl_archPc (s : State) (e : RobEntry) : (s.commitControl e).archPc = s.archPc := by unfold State.commitControl; split <;> rfl
@[simp] theorem State.commitControl_mem (s : State) (e : RobEntry) : (s.commitControl e).mem = s.mem := by unfold State.commitControl; split <;> rfl
@[simp] theorem State.commitControl_rob (s : State) (e : RobEntry) : (s.commitControl e).rob = s.rob := by unfold State.commitControl; split <;> rfl
@[simp] theorem State.commitControl_robHead (s : State) (e : RobEntry) : (s.commitControl e).robHead = s.robHead := by unfold State.commitControl; split <;> rfl
@[simp] theorem State.commitControl_robTail (s : State) (e : RobEntry) : (s.commitControl e).robTail = s.robTail := by unfold State.commitControl; split <;> rfl
@[simp] theorem State.commitControl_robCount (s : State) (e : RobEntry) : (s.commitControl e).robCount = s.robCount := by unfold State.commitControl; split <;> rfl
@[simp] theorem State.commitControl_rs (s : State) (e : RobEntry) : (s.commitControl e).rs = s.rs := by unfold State.commitControl; split <;> rfl
@[simp] theorem State.commitControl_fu (s : State) (e : RobEntry) : (s.commitControl e).fu = s.fu := by unfold State.commitControl; split <;> rfl
@[simp] theorem State.commitControl_cdbq (s : State) (e : RobEntry) : (s.commitControl e).cdbq = s.cdbq := by unfold State.commitControl; split <;> rfl
@[simp] theorem State.commitControl_lsq (s : State) (e : RobEntry) : (s.commitControl e).lsq = s.lsq := by unfold State.commitControl; split <;> rfl
@[simp] theorem State.commitControl_mport (s : State) (e : RobEntry) : (s.commitControl e).mport = s.mport := by unfold State.commitControl; split <;> rfl
@[simp] theorem State.commitControl_fb (s : State) (e : RobEntry) : (s.commitControl e).fb = s.fb := by unfold State.commitControl; split <;> rfl
@[simp] theorem State.commitControl_dl (s : State) (e : RobEntry) : (s.commitControl e).dl = s.dl := by unfold State.commitControl; split <;> rfl
@[simp] theorem State.commitControl_seqNext (s : State) (e : RobEntry) : (s.commitControl e).seqNext = s.seqNext := by unfold State.commitControl; split <;> rfl
@[simp] theorem State.commitControl_cycle (s : State) (e : RobEntry) : (s.commitControl e).cycle = s.cycle := by unfold State.commitControl; split <;> rfl
@[simp] theorem State.commitControl_outcome (s : State) (e : RobEntry) : (s.commitControl e).outcome = s.outcome := by unfold State.commitControl; split <;> rfl
@[simp] theorem State.commitControl_fetch (s : State) (e : RobEntry) : (s.commitControl e).fetch = s.fetch := by unfold State.commitControl; split <;> rfl
@[simp] theorem State.commitControl_icache (s : State) (e : RobEntry) : (s.commitControl e).icache = s.icache := by unfold State.commitControl; split <;> rfl
@[simp] theorem State.commitControl_dcache (s : State) (e : RobEntry) : (s.commitControl e).dcache = s.dcache := by unfold State.commitControl; split <;> rfl
@[simp] theorem State.commitControl_driver (s : State) (e : RobEntry) : (s.commitControl e).driver = s.driver := by unfold State.commitControl; split <;> rfl

/-! `commitLsq` -/
@[simp] theorem State.commitLsq_cfg (s : State) (e : RobEntry) : (s.commitLsq e).cfg = s.cfg := by unfold State.commitLsq; split <;> rfl
@[simp] theorem State.commitLsq_imem (s : State) (e : RobEntry) : (s.commitLsq e).imem = s.imem := by unfold State.commitLsq; split <;> rfl
@[simp] theorem State.commitLsq_rf (s : State) (e : RobEntry) : (s.commitLsq e).rf = s.rf := by unfold State.commitLsq; split <;> rfl
@[simp] theorem State.commitLsq_archPc (s : State) (e : RobEntry) : (s.commitLsq e).archPc = s.archPc := by unfold State.commitLsq; split <;> rfl
@[simp] theorem State.commitLsq_mem (s : State) (e : RobEntry) : (s.commitLsq e).mem = s.mem := by unfold State.commitLsq; split <;> rfl
@[simp] theorem State.commitLsq_rob (s : State) (e : RobEntry) : (s.commitLsq e).rob = s.rob := by unfold State.commitLsq; split <;> rfl
@[simp] theorem State.commitLsq_robHead (s : State) (e : RobEntry) : (s.commitLsq e).robHead = s.robHead := by unfold State.commitLsq; split <;> rfl
@[simp] theorem State.commitLsq_robTail (s : State) (e : RobEntry) : (s.commitLsq e).robTail = s.robTail := by unfold State.commitLsq; split <;> rfl
@[simp] theorem State.commitLsq_robCount (s : State) (e : RobEntry) : (s.commitLsq e).robCount = s.robCount := by unfold State.commitLsq; split <;> rfl
@[simp] theorem State.commitLsq_rs (s : State) (e : RobEntry) : (s.commitLsq e).rs = s.rs := by unfold State.commitLsq; split <;> rfl
@[simp] theorem State.commitLsq_fu (s : State) (e : RobEntry) : (s.commitLsq e).fu = s.fu := by unfold State.commitLsq; split <;> rfl
@[simp] theorem State.commitLsq_cdbq (s : State) (e : RobEntry) : (s.commitLsq e).cdbq = s.cdbq := by unfold State.commitLsq; split <;> rfl
@[simp] theorem State.commitLsq_mport (s : State) (e : RobEntry) : (s.commitLsq e).mport = s.mport := by unfold State.commitLsq; split <;> rfl
@[simp] theorem State.commitLsq_fb (s : State) (e : RobEntry) : (s.commitLsq e).fb = s.fb := by unfold State.commitLsq; split <;> rfl
@[simp] theorem State.commitLsq_dl (s : State) (e : RobEntry) : (s.commitLsq e).dl = s.dl := by unfold State.commitLsq; split <;> rfl
@[simp] theorem State.commitLsq_seqNext (s : State) (e : RobEntry) : (s.commitLsq e).seqNext = s.seqNext := by unfold State.commitLsq; split <;> rfl
@[simp] theorem State.commitLsq_cycle (s : State) (e : RobEntry) : (s.commitLsq e).cycle = s.cycle := by unfold State.commitLsq; split <;> rfl
@[simp] theorem State.commitLsq_outcome (s : State) (e : RobEntry) : (s.commitLsq e).outcome = s.outcome := by unfold State.commitLsq; split <;> rfl
@[simp] theorem State.commitLsq_metrics (s : State) (e : RobEntry) : (s.commitLsq e).metrics = s.metrics := by unfold State.commitLsq; split <;> rfl
@[simp] theorem State.commitLsq_fetch (s : State) (e : RobEntry) : (s.commitLsq e).fetch = s.fetch := by unfold State.commitLsq; split <;> rfl
@[simp] theorem State.commitLsq_pred (s : State) (e : RobEntry) : (s.commitLsq e).pred = s.pred := by unfold State.commitLsq; split <;> rfl
@[simp] theorem State.commitLsq_icache (s : State) (e : RobEntry) : (s.commitLsq e).icache = s.icache := by unfold State.commitLsq; split <;> rfl
@[simp] theorem State.commitLsq_dcache (s : State) (e : RobEntry) : (s.commitLsq e).dcache = s.dcache := by unfold State.commitLsq; split <;> rfl
@[simp] theorem State.commitLsq_driver (s : State) (e : RobEntry) : (s.commitLsq e).driver = s.driver := by unfold State.commitLsq; split <;> rfl

/-! `commitStore` -/
@[simp] theorem State.commitStore_cfg (s : State) (e : RobEntry) : (s.commitStore e).cfg = s.cfg := by unfold State.commitStore; split <;> rfl
@[simp] theorem State.commitStore_imem (s : State) (e : RobEntry) : (s.commitStore e).imem = s.imem := by unfold State.commitStore; split <;> rfl
@[simp] theorem State.commitStore_rf (s : State) (e : RobEntry) : (s.commitStore e).rf = s.rf := by unfold State.commitStore; split <;> rfl
@[simp] theorem State.commitStore_archPc (s : State) (e : RobEntry) : (s.commitStore e).archPc = s.archPc := by unfold State.commitStore; split <;> rfl
@[simp] theorem State.commitStore_rob (s : State) (e : RobEntry) : (s.commitStore e).rob = s.rob := by unfold State.commitStore; split <;> rfl
@[simp] theorem State.commitStore_robHead (s : State) (e : RobEntry) : (s.commitStore e).robHead = s.robHead := by unfold State.commitStore; split <;> rfl
@[simp] theorem State.commitStore_robTail (s : State) (e : RobEntry) : (s.commitStore e).robTail = s.robTail := by unfold State.commitStore; split <;> rfl
@[simp] theorem State.commitStore_robCount (s : State) (e : RobEntry) : (s.commitStore e).robCount = s.robCount := by unfold State.commitStore; split <;> rfl
@[simp] theorem State.commitStore_rs (s : State) (e : RobEntry) : (s.commitStore e).rs = s.rs := by unfold State.commitStore; split <;> rfl
@[simp] theorem State.commitStore_fu (s : State) (e : RobEntry) : (s.commitStore e).fu = s.fu := by unfold State.commitStore; split <;> rfl
@[simp] theorem State.commitStore_cdbq (s : State) (e : RobEntry) : (s.commitStore e).cdbq = s.cdbq := by unfold State.commitStore; split <;> rfl
@[simp] theorem State.commitStore_lsq (s : State) (e : RobEntry) : (s.commitStore e).lsq = s.lsq := by unfold State.commitStore; split <;> rfl
@[simp] theorem State.commitStore_mport (s : State) (e : RobEntry) : (s.commitStore e).mport = s.mport := by unfold State.commitStore; split <;> rfl
@[simp] theorem State.commitStore_fb (s : State) (e : RobEntry) : (s.commitStore e).fb = s.fb := by unfold State.commitStore; split <;> rfl
@[simp] theorem State.commitStore_dl (s : State) (e : RobEntry) : (s.commitStore e).dl = s.dl := by unfold State.commitStore; split <;> rfl
@[simp] theorem State.commitStore_seqNext (s : State) (e : RobEntry) : (s.commitStore e).seqNext = s.seqNext := by unfold State.commitStore; split <;> rfl
@[simp] theorem State.commitStore_cycle (s : State) (e : RobEntry) : (s.commitStore e).cycle = s.cycle := by unfold State.commitStore; split <;> rfl
@[simp] theorem State.commitStore_outcome (s : State) (e : RobEntry) : (s.commitStore e).outcome = s.outcome := by unfold State.commitStore; split <;> rfl
@[simp] theorem State.commitStore_fetch (s : State) (e : RobEntry) : (s.commitStore e).fetch = s.fetch := by unfold State.commitStore; split <;> rfl
@[simp] theorem State.commitStore_pred (s : State) (e : RobEntry) : (s.commitStore e).pred = s.pred := by unfold State.commitStore; split <;> rfl
@[simp] theorem State.commitStore_icache (s : State) (e : RobEntry) : (s.commitStore e).icache = s.icache := by unfold State.commitStore; split <;> rfl
@[simp] theorem State.commitStore_driver (s : State) (e : RobEntry) : (s.commitStore e).driver = s.driver := by unfold State.commitStore; split <;> rfl

/-! `commitRegister` -/
@[simp] theorem State.commitRegister_cfg (s : State) (h : Nat) (e : RobEntry) : (s.commitRegister h e).cfg = s.cfg := by
  unfold State.commitRegister; split
  · rfl
  · dsimp only; split <;> simp
@[simp] theorem State.commitRegister_imem (s : State) (h : Nat) (e : RobEntry) : (s.commitRegister h e).imem = s.imem := by
  unfold State.commitRegister; split
  · rfl
  · dsimp only; split <;> simp
@[simp] theorem State.commitRegister_archPc (s : State) (h : Nat) (e : RobEntry) : (s.commitRegister h e).archPc = s.archPc := by
  unfold State.commitRegister; split
  · rfl
  · dsimp only; split <;> simp
@[simp] theorem State.commitRegister_mem (s : State) (h : Nat) (e : RobEntry) : (s.commitRegister h e).mem = s.mem := by
  unfold State.commitRegister; split
  · rfl
  · dsimp only; split <;> simp
@[simp] theorem State.commitRegister_rob (s : State) (h : Nat) (e : RobEntry) : (s.commitRegister h e).rob = s.rob := by
  unfold State.commitRegister; split
  · rfl
  · dsimp only; split <;> simp
@[simp] theorem State.commitRegister_robHead (s : State) (h : Nat) (e : RobEntry) : (s.commitRegister h e).robHead = s.robHead := by
  unfold State.commitRegister; split
  · rfl
  · dsimp only; split <;> simp
@[simp] theorem State.commitRegister_robTail (s : State) (h : Nat) (e : RobEntry) : (s.commitRegister h e).robTail = s.robTail := by
  unfold State.commitRegister; split
  · rfl
  · dsimp only; split <;> simp
@[simp] theorem State.commitRegister_robCount (s : State) (h : Nat) (e : RobEntry) : (s.commitRegister h e).robCount = s.robCount := by
  unfold State.commitRegister; split
  · rfl
  · dsimp only; split <;> simp
@[simp] theorem State.commitRegister_rs (s : State) (h : Nat) (e : RobEntry) : (s.commitRegister h e).rs = s.rs := by
  unfold State.commitRegister; split
  · rfl
  · dsimp only; split <;> simp
@[simp] theorem State.commitRegister_fu (s : State) (h : Nat) (e : RobEntry) : (s.commitRegister h e).fu = s.fu := by
  unfold State.commitRegister; split
  · rfl
  · dsimp only; split <;> simp
@[simp] theorem State.commitRegister_cdbq (s : State) (h : Nat) (e : RobEntry) : (s.commitRegister h e).cdbq = s.cdbq := by
  unfold State.commitRegister; split
  · rfl
  · dsimp only; split <;> simp
@[simp] theorem State.commitRegister_lsq (s : State) (h : Nat) (e : RobEntry) : (s.commitRegister h e).lsq = s.lsq := by
  unfold State.commitRegister; split
  · rfl
  · dsimp only; split <;> simp
@[simp] theorem State.commitRegister_mport (s : State) (h : Nat) (e : RobEntry) : (s.commitRegister h e).mport = s.mport := by
  unfold State.commitRegister; split
  · rfl
  · dsimp only; split <;> simp
@[simp] theorem State.commitRegister_fb (s : State) (h : Nat) (e : RobEntry) : (s.commitRegister h e).fb = s.fb := by
  unfold State.commitRegister; split
  · rfl
  · dsimp only; split <;> simp
@[simp] theorem State.commitRegister_dl (s : State) (h : Nat) (e : RobEntry) : (s.commitRegister h e).dl = s.dl := by
  unfold State.commitRegister; split
  · rfl
  · dsimp only; split <;> simp
@[simp] theorem State.commitRegister_seqNext (s : State) (h : Nat) (e : RobEntry) : (s.commitRegister h e).seqNext = s.seqNext := by
  unfold State.commitRegister; split
  · rfl
  · dsimp only; split <;> simp
@[simp] theorem State.commitRegister_cycle (s : State) (h : Nat) (e : RobEntry) : (s.commitRegister h e).cycle = s.cycle := by
  unfold State.commitRegister; split
  · rfl
  · dsimp only; split <;> simp
@[simp] theorem State.commitRegister_outcome (s : State) (h : Nat) (e : RobEntry) : (s.commitRegister h e).outcome = s.outcome := by
  unfold State.commitRegister; split
  · rfl
  · dsimp only; split <;> simp
@[simp] theorem State.commitRegister_metrics (s : State) (h : Nat) (e : RobEntry) : (s.commitRegister h e).metrics = s.metrics := by
  unfold State.commitRegister; split
  · rfl
  · dsimp only; split <;> simp
@[simp] theorem State.commitRegister_fetch (s : State) (h : Nat) (e : RobEntry) : (s.commitRegister h e).fetch = s.fetch := by
  unfold State.commitRegister; split
  · rfl
  · dsimp only; split <;> simp
@[simp] theorem State.commitRegister_pred (s : State) (h : Nat) (e : RobEntry) : (s.commitRegister h e).pred = s.pred := by
  unfold State.commitRegister; split
  · rfl
  · dsimp only; split <;> simp
@[simp] theorem State.commitRegister_icache (s : State) (h : Nat) (e : RobEntry) : (s.commitRegister h e).icache = s.icache := by
  unfold State.commitRegister; split
  · rfl
  · dsimp only; split <;> simp
@[simp] theorem State.commitRegister_dcache (s : State) (h : Nat) (e : RobEntry) : (s.commitRegister h e).dcache = s.dcache := by
  unfold State.commitRegister; split
  · rfl
  · dsimp only; split <;> simp
@[simp] theorem State.commitRegister_driver (s : State) (h : Nat) (e : RobEntry) : (s.commitRegister h e).driver = s.driver := by
  unfold State.commitRegister; split
  · rfl
  · dsimp only; split <;> simp

/-! `redirect` -/
@[simp] theorem State.redirect_cfg (s : State) (e : RobEntry) : (s.redirect e).cfg = s.cfg := rfl
@[simp] theorem State.redirect_imem (s : State) (e : RobEntry) : (s.redirect e).imem = s.imem := rfl
@[simp] theorem State.redirect_rf (s : State) (e : RobEntry) : (s.redirect e).rf = s.rf := rfl
@[simp] theorem State.redirect_archPc (s : State) (e : RobEntry) : (s.redirect e).archPc = s.archPc := rfl
@[simp] theorem State.redirect_mem (s : State) (e : RobEntry) : (s.redirect e).mem = s.mem := rfl
@[simp] theorem State.redirect_rob (s : State) (e : RobEntry) : (s.redirect e).rob = s.rob := rfl
@[simp] theorem State.redirect_robHead (s : State) (e : RobEntry) : (s.redirect e).robHead = s.robHead := rfl
@[simp] theorem State.redirect_robTail (s : State) (e : RobEntry) : (s.redirect e).robTail = s.robTail := rfl
@[simp] theorem State.redirect_robCount (s : State) (e : RobEntry) : (s.redirect e).robCount = s.robCount := rfl
@[simp] theorem State.redirect_rs (s : State) (e : RobEntry) : (s.redirect e).rs = s.rs := rfl
@[simp] theorem State.redirect_fu (s : State) (e : RobEntry) : (s.redirect e).fu = s.fu := rfl
@[simp] theorem State.redirect_cdbq (s : State) (e : RobEntry) : (s.redirect e).cdbq = s.cdbq := rfl
@[simp] theorem State.redirect_lsq (s : State) (e : RobEntry) : (s.redirect e).lsq = s.lsq := rfl
@[simp] theorem State.redirect_mport (s : State) (e : RobEntry) : (s.redirect e).mport = s.mport := rfl
@[simp] theorem State.redirect_fb (s : State) (e : RobEntry) :
    (s.redirect e).fb = [] := rfl
@[simp] theorem State.redirect_dl (s : State) (e : RobEntry) : (s.redirect e).dl = s.dl := rfl
@[simp] theorem State.redirect_seqNext (s : State) (e : RobEntry) : (s.redirect e).seqNext = s.seqNext := rfl
@[simp] theorem State.redirect_cycle (s : State) (e : RobEntry) : (s.redirect e).cycle = s.cycle := rfl
@[simp] theorem State.redirect_outcome (s : State) (e : RobEntry) : (s.redirect e).outcome = s.outcome := rfl
@[simp] theorem State.redirect_metrics (s : State) (e : RobEntry) : (s.redirect e).metrics = s.metrics := rfl
@[simp] theorem State.redirect_fetch (s : State) (e : RobEntry) :
    (s.redirect e).fetch = { s.fetch with pc := e.actualNextPc, stall := 0, blocked := false } := rfl
@[simp] theorem State.redirect_pred (s : State) (e : RobEntry) :
    (s.redirect e).pred = historyRepair s.cfg s.pred e := rfl
@[simp] theorem State.redirect_icache (s : State) (e : RobEntry) : (s.redirect e).icache = s.icache := rfl
@[simp] theorem State.redirect_dcache (s : State) (e : RobEntry) : (s.redirect e).dcache = s.dcache := rfl
@[simp] theorem State.redirect_driver (s : State) (e : RobEntry) : (s.redirect e).driver = s.driver := rfl

/-! `squashAfter` -/
@[simp] theorem State.squashAfter_cfg (s : State) (e : RobEntry) : (s.squashAfter e).cfg = s.cfg := rfl
@[simp] theorem State.squashAfter_imem (s : State) (e : RobEntry) : (s.squashAfter e).imem = s.imem := rfl
@[simp] theorem State.squashAfter_rf (s : State) (e : RobEntry) :
    (s.squashAfter e).rf = mapRegisters (fun r => { r with ready := true }) s.rf := rfl
@[simp] theorem State.squashAfter_archPc (s : State) (e : RobEntry) : (s.squashAfter e).archPc = s.archPc := rfl
@[simp] theorem State.squashAfter_mem (s : State) (e : RobEntry) : (s.squashAfter e).mem = s.mem := rfl
@[simp] theorem State.squashAfter_rob (s : State) (e : RobEntry) :
    (s.squashAfter e).rob = s.rob.map (fun y => { y with valid := false }) := rfl
@[simp] theorem State.squashAfter_robHead (s : State) (e : RobEntry) : (s.squashAfter e).robHead = s.robHead := rfl
@[simp] theorem State.squashAfter_robTail (s : State) (e : RobEntry) :
    (s.squashAfter e).robTail = s.robHead := rfl
@[simp] theorem State.squashAfter_robCount (s : State) (e : RobEntry) :
    (s.squashAfter e).robCount = 0 := rfl
@[simp] theorem State.squashAfter_rs (s : State) (e : RobEntry) :
    (s.squashAfter e).rs = s.rs.map (fun l => l.map (fun x => { x with valid := false })) := rfl
@[simp] theorem State.squashAfter_fu (s : State) (e : RobEntry) :
    (s.squashAfter e).fu = s.fu.map (fun l => l.map (fun u => { u with busy := false })) := rfl
@[simp] theorem State.squashAfter_cdbq (s : State) (e : RobEntry) :
    (s.squashAfter e).cdbq = [] := rfl
@[simp] theorem State.squashAfter_lsq (s : State) (e : RobEntry) :
    (s.squashAfter e).lsq = [] := rfl
@[simp] theorem State.squashAfter_mport (s : State) (e : RobEntry) :
    (s.squashAfter e).mport = { s.mport with busy := false } := rfl
@[simp] theorem State.squashAfter_fb (s : State) (e : RobEntry) :
    (s.squashAfter e).fb = [] := rfl
@[simp] theorem State.squashAfter_dl (s : State) (e : RobEntry) :
    (s.squashAfter e).dl = [] := rfl
@[simp] theorem State.squashAfter_seqNext (s : State) (e : RobEntry) : (s.squashAfter e).seqNext = s.seqNext := rfl
@[simp] theorem State.squashAfter_cycle (s : State) (e : RobEntry) : (s.squashAfter e).cycle = s.cycle := rfl
@[simp] theorem State.squashAfter_outcome (s : State) (e : RobEntry) : (s.squashAfter e).outcome = s.outcome := rfl
@[simp] theorem State.squashAfter_metrics (s : State) (e : RobEntry) : (s.squashAfter e).metrics = s.metrics := rfl
@[simp] theorem State.squashAfter_fetch (s : State) (e : RobEntry) :
    (s.squashAfter e).fetch = { s.fetch with pc := e.actualNextPc, stall := 0, blocked := false } := rfl
@[simp] theorem State.squashAfter_pred (s : State) (e : RobEntry) :
    (s.squashAfter e).pred = historyRepair s.cfg s.pred e := rfl
@[simp] theorem State.squashAfter_icache (s : State) (e : RobEntry) : (s.squashAfter e).icache = s.icache := rfl
@[simp] theorem State.squashAfter_dcache (s : State) (e : RobEntry) : (s.squashAfter e).dcache = s.dcache := rfl
@[simp] theorem State.squashAfter_driver (s : State) (e : RobEntry) : (s.squashAfter e).driver = s.driver := rfl

/-! `wake` -/
@[simp] theorem State.wake_cfg (s : State) (t : Nat) (v : Word) : (s.wake t v).cfg = s.cfg := rfl
@[simp] theorem State.wake_imem (s : State) (t : Nat) (v : Word) : (s.wake t v).imem = s.imem := rfl
@[simp] theorem State.wake_rf (s : State) (t : Nat) (v : Word) : (s.wake t v).rf = s.rf := rfl
@[simp] theorem State.wake_archPc (s : State) (t : Nat) (v : Word) : (s.wake t v).archPc = s.archPc := rfl
@[simp] theorem State.wake_mem (s : State) (t : Nat) (v : Word) : (s.wake t v).mem = s.mem := rfl
@[simp] theorem State.wake_rob (s : State) (t : Nat) (v : Word) : (s.wake t v).rob = s.rob := rfl
@[simp] theorem State.wake_robHead (s : State) (t : Nat) (v : Word) : (s.wake t v).robHead = s.robHead := rfl
@[simp] theorem State.wake_robTail (s : State) (t : Nat) (v : Word) : (s.wake t v).robTail = s.robTail := rfl
@[simp] theorem State.wake_robCount (s : State) (t : Nat) (v : Word) : (s.wake t v).robCount = s.robCount := rfl
@[simp] theorem State.wake_rs (s : State) (t : Nat) (v : Word) :
    (s.wake t v).rs = s.rs.map (fun l => l.map (fun e => e.wake t v)) := rfl
@[simp] theorem State.wake_fu (s : State) (t : Nat) (v : Word) : (s.wake t v).fu = s.fu := rfl
@[simp] theorem State.wake_cdbq (s : State) (t : Nat) (v : Word) : (s.wake t v).cdbq = s.cdbq := rfl
@[simp] theorem State.wake_lsq (s : State) (t : Nat) (v : Word) : (s.wake t v).lsq = s.lsq := rfl
@[simp] theorem State.wake_mport (s : State) (t : Nat) (v : Word) : (s.wake t v).mport = s.mport := rfl
@[simp] theorem State.wake_fb (s : State) (t : Nat) (v : Word) : (s.wake t v).fb = s.fb := rfl
@[simp] theorem State.wake_dl (s : State) (t : Nat) (v : Word) : (s.wake t v).dl = s.dl := rfl
@[simp] theorem State.wake_seqNext (s : State) (t : Nat) (v : Word) : (s.wake t v).seqNext = s.seqNext := rfl
@[simp] theorem State.wake_cycle (s : State) (t : Nat) (v : Word) : (s.wake t v).cycle = s.cycle := rfl
@[simp] theorem State.wake_outcome (s : State) (t : Nat) (v : Word) : (s.wake t v).outcome = s.outcome := rfl
@[simp] theorem State.wake_metrics (s : State) (t : Nat) (v : Word) : (s.wake t v).metrics = s.metrics := rfl
@[simp] theorem State.wake_fetch (s : State) (t : Nat) (v : Word) : (s.wake t v).fetch = s.fetch := rfl
@[simp] theorem State.wake_pred (s : State) (t : Nat) (v : Word) : (s.wake t v).pred = s.pred := rfl
@[simp] theorem State.wake_icache (s : State) (t : Nat) (v : Word) : (s.wake t v).icache = s.icache := rfl
@[simp] theorem State.wake_dcache (s : State) (t : Nat) (v : Word) : (s.wake t v).dcache = s.dcache := rfl
@[simp] theorem State.wake_driver (s : State) (t : Nat) (v : Word) : (s.wake t v).driver = s.driver := rfl

/-! `markLoadDone` -/
@[simp] theorem State.markLoadDone_cfg (s : State) (l : Option Nat) : (s.markLoadDone l).cfg = s.cfg := by unfold State.markLoadDone; split <;> rfl
@[simp] theorem State.markLoadDone_imem (s : State) (l : Option Nat) : (s.markLoadDone l).imem = s.imem := by unfold State.markLoadDone; split <;> rfl
@[simp] theorem State.markLoadDone_rf (s : State) (l : Option Nat) : (s.markLoadDone l).rf = s.rf := by unfold State.markLoadDone; split <;> rfl
@[simp] theorem State.markLoadDone_archPc (s : State) (l : Option Nat) : (s.markLoadDone l).archPc = s.archPc := by unfold State.markLoadDone; split <;> rfl
@[simp] theorem State.markLoadDone_mem (s : State) (l : Option Nat) : (s.markLoadDone l).mem = s.mem := by unfold State.markLoadDone; split <;> rfl
@[simp] theorem State.markLoadDone_rob (s : State) (l : Option Nat) : (s.markLoadDone l).rob = s.rob := by unfold State.markLoadDone; split <;> rfl
@[simp] theorem State.markLoadDone_robHead (s : State) (l : Option Nat) : (s.markLoadDone l).robHead = s.robHead := by unfold State.markLoadDone; split <;> rfl
@[simp] theorem State.markLoadDone_robTail (s : State) (l : Option Nat) : (s.markLoadDone l).robTail = s.robTail := by unfold State.markLoadDone; split <;> rfl
@[simp] theorem State.markLoadDone_robCount (s : State) (l : Option Nat) : (s.markLoadDone l).robCount = s.robCount := by unfold State.markLoadDone; split <;> rfl
@[simp] theorem State.markLoadDone_rs (s : State) (l : Option Nat) : (s.markLoadDone l).rs = s.rs := by unfold State.markLoadDone; split <;> rfl
@[simp] theorem State.markLoadDone_fu (s : State) (l : Option Nat) : (s.markLoadDone l).fu = s.fu := by unfold State.markLoadDone; split <;> rfl
@[simp] theorem State.markLoadDone_cdbq (s : State) (l : Option Nat) : (s.markLoadDone l).cdbq = s.cdbq := by unfold State.markLoadDone; split <;> rfl
@[simp] theorem State.markLoadDone_mport (s : State) (l : Option Nat) : (s.markLoadDone l).mport = s.mport := by unfold State.markLoadDone; split <;> rfl
@[simp] theorem State.markLoadDone_fb (s : State) (l : Option Nat) : (s.markLoadDone l).fb = s.fb := by unfold State.markLoadDone; split <;> rfl
@[simp] theorem State.markLoadDone_dl (s : State) (l : Option Nat) : (s.markLoadDone l).dl = s.dl := by unfold State.markLoadDone; split <;> rfl
@[simp] theorem State.markLoadDone_seqNext (s : State) (l : Option Nat) : (s.markLoadDone l).seqNext = s.seqNext := by unfold State.markLoadDone; split <;> rfl
@[simp] theorem State.markLoadDone_cycle (s : State) (l : Option Nat) : (s.markLoadDone l).cycle = s.cycle := by unfold State.markLoadDone; split <;> rfl
@[simp] theorem State.markLoadDone_outcome (s : State) (l : Option Nat) : (s.markLoadDone l).outcome = s.outcome := by unfold State.markLoadDone; split <;> rfl
@[simp] theorem State.markLoadDone_metrics (s : State) (l : Option Nat) : (s.markLoadDone l).metrics = s.metrics := by unfold State.markLoadDone; split <;> rfl
@[simp] theorem State.markLoadDone_fetch (s : State) (l : Option Nat) : (s.markLoadDone l).fetch = s.fetch := by unfold State.markLoadDone; split <;> rfl
@[simp] theorem State.markLoadDone_pred (s : State) (l : Option Nat) : (s.markLoadDone l).pred = s.pred := by unfold State.markLoadDone; split <;> rfl
@[simp] theorem State.markLoadDone_icache (s : State) (l : Option Nat) : (s.markLoadDone l).icache = s.icache := by unfold State.markLoadDone; split <;> rfl
@[simp] theorem State.markLoadDone_dcache (s : State) (l : Option Nat) : (s.markLoadDone l).dcache = s.dcache := by unfold State.markLoadDone; split <;> rfl
@[simp] theorem State.markLoadDone_driver (s : State) (l : Option Nat) : (s.markLoadDone l).driver = s.driver := by unfold State.markLoadDone; split <;> rfl

/-! `setUnit` -/
@[simp] theorem State.setUnit_cfg (s : State) (k : FuClass) (j : Nat) (u : FuUnit) : (s.setUnit k j u).cfg = s.cfg := rfl
@[simp] theorem State.setUnit_imem (s : State) (k : FuClass) (j : Nat) (u : FuUnit) : (s.setUnit k j u).imem = s.imem := rfl
@[simp] theorem State.setUnit_rf (s : State) (k : FuClass) (j : Nat) (u : FuUnit) : (s.setUnit k j u).rf = s.rf := rfl
@[simp] theorem State.setUnit_archPc (s : State) (k : FuClass) (j : Nat) (u : FuUnit) : (s.setUnit k j u).archPc = s.archPc := rfl
@[simp] theorem State.setUnit_mem (s : State) (k : FuClass) (j : Nat) (u : FuUnit) : (s.setUnit k j u).mem = s.mem := rfl
@[simp] theorem State.setUnit_rob (s : State) (k : FuClass) (j : Nat) (u : FuUnit) : (s.setUnit k j u).rob = s.rob := rfl
@[simp] theorem State.setUnit_robHead (s : State) (k : FuClass) (j : Nat) (u : FuUnit) : (s.setUnit k j u).robHead = s.robHead := rfl
@[simp] theorem State.setUnit_robTail (s : State) (k : FuClass) (j : Nat) (u : FuUnit) : (s.setUnit k j u).robTail = s.robTail := rfl
@[simp] theorem State.setUnit_robCount (s : State) (k : FuClass) (j : Nat) (u : FuUnit) : (s.setUnit k j u).robCount = s.robCount := rfl
@[simp] theorem State.setUnit_rs (s : State) (k : FuClass) (j : Nat) (u : FuUnit) : (s.setUnit k j u).rs = s.rs := rfl
@[simp] theorem State.setUnit_fu (s : State) (k : FuClass) (j : Nat) (u : FuUnit) :
    (s.setUnit k j u).fu = s.fu.set k (updateAt (fun _ => u) (s.fu.get k) j) := rfl
@[simp] theorem State.setUnit_cdbq (s : State) (k : FuClass) (j : Nat) (u : FuUnit) : (s.setUnit k j u).cdbq = s.cdbq := rfl
@[simp] theorem State.setUnit_lsq (s : State) (k : FuClass) (j : Nat) (u : FuUnit) : (s.setUnit k j u).lsq = s.lsq := rfl
@[simp] theorem State.setUnit_mport (s : State) (k : FuClass) (j : Nat) (u : FuUnit) : (s.setUnit k j u).mport = s.mport := rfl
@[simp] theorem State.setUnit_fb (s : State) (k : FuClass) (j : Nat) (u : FuUnit) : (s.setUnit k j u).fb = s.fb := rfl
@[simp] theorem State.setUnit_dl (s : State) (k : FuClass) (j : Nat) (u : FuUnit) : (s.setUnit k j u).dl = s.dl := rfl
@[simp] theorem State.setUnit_seqNext (s : State) (k : FuClass) (j : Nat) (u : FuUnit) : (s.setUnit k j u).seqNext = s.seqNext := rfl
@[simp] theorem State.setUnit_cycle (s : State) (k : FuClass) (j : Nat) (u : FuUnit) : (s.setUnit k j u).cycle = s.cycle := rfl
@[simp] theorem State.setUnit_outcome (s : State) (k : FuClass) (j : Nat) (u : FuUnit) : (s.setUnit k j u).outcome = s.outcome := rfl
@[simp] theorem State.setUnit_metrics (s : State) (k : FuClass) (j : Nat) (u : FuUnit) : (s.setUnit k j u).metrics = s.metrics := rfl
@[simp] theorem State.setUnit_fetch (s : State) (k : FuClass) (j : Nat) (u : FuUnit) : (s.setUnit k j u).fetch = s.fetch := rfl
@[simp] theorem State.setUnit_pred (s : State) (k : FuClass) (j : Nat) (u : FuUnit) : (s.setUnit k j u).pred = s.pred := rfl
@[simp] theorem State.setUnit_icache (s : State) (k : FuClass) (j : Nat) (u : FuUnit) : (s.setUnit k j u).icache = s.icache := rfl
@[simp] theorem State.setUnit_dcache (s : State) (k : FuClass) (j : Nat) (u : FuUnit) : (s.setUnit k j u).dcache = s.dcache := rfl
@[simp] theorem State.setUnit_driver (s : State) (k : FuClass) (j : Nat) (u : FuUnit) : (s.setUnit k j u).driver = s.driver := rfl

/-! `countBusy` -/
@[simp] theorem State.countBusy_cfg (s : State) (k : FuClass) (j : Nat) : (s.countBusy k j).cfg = s.cfg := rfl
@[simp] theorem State.countBusy_imem (s : State) (k : FuClass) (j : Nat) : (s.countBusy k j).imem = s.imem := rfl
@[simp] theorem State.countBusy_rf (s : State) (k : FuClass) (j : Nat) : (s.countBusy k j).rf = s.rf := rfl
@[simp] theorem State.countBusy_archPc (s : State) (k : FuClass) (j : Nat) : (s.countBusy k j).archPc = s.archPc := rfl
@[simp] theorem State.countBusy_mem (s : State) (k : FuClass) (j : Nat) : (s.countBusy k j).mem = s.mem := rfl
@[simp] theorem State.countBusy_rob (s : State) (k : FuClass) (j : Nat) : (s.countBusy k j).rob = s.rob := rfl
@[simp] theorem State.countBusy_robHead (s : State) (k : FuClass) (j : Nat) : (s.countBusy k j).robHead = s.robHead := rfl
@[simp] theorem State.countBusy_robTail (s : State) (k : FuClass) (j : Nat) : (s.countBusy k j).robTail = s.robTail := rfl
@[simp] theorem State.countBusy_robCount (s : State) (k : FuClass) (j : Nat) : (s.countBusy k j).robCount = s.robCount := rfl
@[simp] theorem State.countBusy_rs (s : State) (k : FuClass) (j : Nat) : (s.countBusy k j).rs = s.rs := rfl
@[simp] theorem State.countBusy_fu (s : State) (k : FuClass) (j : Nat) : (s.countBusy k j).fu = s.fu := rfl
@[simp] theorem State.countBusy_cdbq (s : State) (k : FuClass) (j : Nat) : (s.countBusy k j).cdbq = s.cdbq := rfl
@[simp] theorem State.countBusy_lsq (s : State) (k : FuClass) (j : Nat) : (s.countBusy k j).lsq = s.lsq := rfl
@[simp] theorem State.countBusy_mport (s : State) (k : FuClass) (j : Nat) : (s.countBusy k j).mport = s.mport := rfl
@[simp] theorem State.countBusy_fb (s : State) (k : FuClass) (j : Nat) : (s.countBusy k j).fb = s.fb := rfl
@[simp] theorem State.countBusy_dl (s : State) (k : FuClass) (j : Nat) : (s.countBusy k j).dl = s.dl := rfl
@[simp] theorem State.countBusy_seqNext (s : State) (k : FuClass) (j : Nat) : (s.countBusy k j).seqNext = s.seqNext := rfl
@[simp] theorem State.countBusy_cycle (s : State) (k : FuClass) (j : Nat) : (s.countBusy k j).cycle = s.cycle := rfl
@[simp] theorem State.countBusy_outcome (s : State) (k : FuClass) (j : Nat) : (s.countBusy k j).outcome = s.outcome := rfl
@[simp] theorem State.countBusy_fetch (s : State) (k : FuClass) (j : Nat) : (s.countBusy k j).fetch = s.fetch := rfl
@[simp] theorem State.countBusy_pred (s : State) (k : FuClass) (j : Nat) : (s.countBusy k j).pred = s.pred := rfl
@[simp] theorem State.countBusy_icache (s : State) (k : FuClass) (j : Nat) : (s.countBusy k j).icache = s.icache := rfl
@[simp] theorem State.countBusy_dcache (s : State) (k : FuClass) (j : Nat) : (s.countBusy k j).dcache = s.dcache := rfl
@[simp] theorem State.countBusy_driver (s : State) (k : FuClass) (j : Nat) : (s.countBusy k j).driver = s.driver := rfl

/-! `countRaw` -/
@[simp] theorem State.countRaw_cfg (s : State) (n : Nat) : (s.countRaw n).cfg = s.cfg := by unfold State.countRaw; split <;> rfl
@[simp] theorem State.countRaw_imem (s : State) (n : Nat) : (s.countRaw n).imem = s.imem := by unfold State.countRaw; split <;> rfl
@[simp] theorem State.countRaw_rf (s : State) (n : Nat) : (s.countRaw n).rf = s.rf := by unfold State.countRaw; split <;> rfl
@[simp] theorem State.countRaw_archPc (s : State) (n : Nat) : (s.countRaw n).archPc = s.archPc := by unfold State.countRaw; split <;> rfl
@[simp] theorem State.countRaw_mem (s : State) (n : Nat) : (s.countRaw n).mem = s.mem := by unfold State.countRaw; split <;> rfl
@[simp] theorem State.countRaw_rob (s : State) (n : Nat) : (s.countRaw n).rob = s.rob := by unfold State.countRaw; split <;> rfl
@[simp] theorem State.countRaw_robHead (s : State) (n : Nat) : (s.countRaw n).robHead = s.robHead := by unfold State.countRaw; split <;> rfl
@[simp] theorem State.countRaw_robTail (s : State) (n : Nat) : (s.countRaw n).robTail = s.robTail := by unfold State.countRaw; split <;> rfl
@[simp] theorem State.countRaw_robCount (s : State) (n : Nat) : (s.countRaw n).robCount = s.robCount := by unfold State.countRaw; split <;> rfl
@[simp] theorem State.countRaw_rs (s : State) (n : Nat) : (s.countRaw n).rs = s.rs := by unfold State.countRaw; split <;> rfl
@[simp] theorem State.countRaw_fu (s : State) (n : Nat) : (s.countRaw n).fu = s.fu := by unfold State.countRaw; split <;> rfl
@[simp] theorem State.countRaw_cdbq (s : State) (n : Nat) : (s.countRaw n).cdbq = s.cdbq := by unfold State.countRaw; split <;> rfl
@[simp] theorem State.countRaw_lsq (s : State) (n : Nat) : (s.countRaw n).lsq = s.lsq := by unfold State.countRaw; split <;> rfl
@[simp] theorem State.countRaw_mport (s : State) (n : Nat) : (s.countRaw n).mport = s.mport := by unfold State.countRaw; split <;> rfl
@[simp] theorem State.countRaw_fb (s : State) (n : Nat) : (s.countRaw n).fb = s.fb := by unfold State.countRaw; split <;> rfl
@[simp] theorem State.countRaw_dl (s : State) (n : Nat) : (s.countRaw n).dl = s.dl := by unfold State.countRaw; split <;> rfl
@[simp] theorem State.countRaw_seqNext (s : State) (n : Nat) : (s.countRaw n).seqNext = s.seqNext := by unfold State.countRaw; split <;> rfl
@[simp] theorem State.countRaw_cycle (s : State) (n : Nat) : (s.countRaw n).cycle = s.cycle := by unfold State.countRaw; split <;> rfl
@[simp] theorem State.countRaw_outcome (s : State) (n : Nat) : (s.countRaw n).outcome = s.outcome := by unfold State.countRaw; split <;> rfl
@[simp] theorem State.countRaw_fetch (s : State) (n : Nat) : (s.countRaw n).fetch = s.fetch := by unfold State.countRaw; split <;> rfl
@[simp] theorem State.countRaw_pred (s : State) (n : Nat) : (s.countRaw n).pred = s.pred := by unfold State.countRaw; split <;> rfl
@[simp] theorem State.countRaw_icache (s : State) (n : Nat) : (s.countRaw n).icache = s.icache := by unfold State.countRaw; split <;> rfl
@[simp] theorem State.countRaw_dcache (s : State) (n : Nat) : (s.countRaw n).dcache = s.dcache := by unfold State.countRaw; split <;> rfl
@[simp] theorem State.countRaw_driver (s : State) (n : Nat) : (s.countRaw n).driver = s.driver := by unfold State.countRaw; split <;> rfl

/-! `resolve` -/
@[simp] theorem State.resolve_cfg (s : State) (u : FuUnit) : (s.resolve u).cfg = s.cfg := by unfold State.resolve; split <;> rfl
@[simp] theorem State.resolve_imem (s : State) (u : FuUnit) : (s.resolve u).imem = s.imem := by unfold State.resolve; split <;> rfl
@[simp] theorem State.resolve_rf (s : State) (u : FuUnit) : (s.resolve u).rf = s.rf := by unfold State.resolve; split <;> rfl
@[simp] theorem State.resolve_archPc (s : State) (u : FuUnit) : (s.resolve u).archPc = s.archPc := by unfold State.resolve; split <;> rfl
@[simp] theorem State.resolve_mem (s : State) (u : FuUnit) : (s.resolve u).mem = s.mem := by unfold State.resolve; split <;> rfl
@[simp] theorem State.resolve_robHead (s : State) (u : FuUnit) : (s.resolve u).robHead = s.robHead := by unfold State.resolve; split <;> rfl
@[simp] theorem State.resolve_robTail (s : State) (u : FuUnit) : (s.resolve u).robTail = s.robTail := by unfold State.resolve; split <;> rfl
@[simp] theorem State.resolve_robCount (s : State) (u : FuUnit) : (s.resolve u).robCount = s.robCount := by unfold State.resolve; split <;> rfl
@[simp] theorem State.resolve_rs (s : State) (u : FuUnit) : (s.resolve u).rs = s.rs := by unfold State.resolve; split <;> rfl
@[simp] theorem State.resolve_fu (s : State) (u : FuUnit) : (s.resolve u).fu = s.fu := by unfold State.resolve; split <;> rfl
@[simp] theorem State.resolve_cdbq (s : State) (u : FuUnit) : (s.resolve u).cdbq = s.cdbq := by unfold State.resolve; split <;> rfl
@[simp] theorem State.resolve_mport (s : State) (u : FuUnit) : (s.resolve u).mport = s.mport := by unfold State.resolve; split <;> rfl
@[simp] theorem State.resolve_fb (s : State) (u : FuUnit) : (s.resolve u).fb = s.fb := by unfold State.resolve; split <;> rfl
@[simp] theorem State.resolve_dl (s : State) (u : FuUnit) : (s.resolve u).dl = s.dl := by unfold State.resolve; split <;> rfl
@[simp] theorem State.resolve_seqNext (s : State) (u : FuUnit) : (s.resolve u).seqNext = s.seqNext := by unfold State.resolve; split <;> rfl
@[simp] theorem State.resolve_cycle (s : State) (u : FuUnit) : (s.resolve u).cycle = s.cycle := by unfold State.resolve; split <;> rfl
@[simp] theorem State.resolve_outcome (s : State) (u : FuUnit) : (s.resolve u).outcome = s.outcome := by unfold State.resolve; split <;> rfl
@[simp] theorem State.resolve_metrics (s : State) (u : FuUnit) : (s.resolve u).metrics = s.metrics := by unfold State.resolve; split <;> rfl
@[simp] theorem State.resolve_fetch (s : State) (u : FuUnit) : (s.resolve u).fetch = s.fetch := by unfold State.resolve; split <;> rfl
@[simp] theorem State.resolve_pred (s : State) (u : FuUnit) : (s.resolve u).pred = s.pred := by unfold State.resolve; split <;> rfl
@[simp] theorem State.resolve_icache (s : State) (u : FuUnit) : (s.resolve u).icache = s.icache := by unfold State.resolve; split <;> rfl
@[simp] theorem State.resolve_dcache (s : State) (u : FuUnit) : (s.resolve u).dcache = s.dcache := by unfold State.resolve; split <;> rfl
@[simp] theorem State.resolve_driver (s : State) (u : FuUnit) : (s.resolve u).driver = s.driver := by unfold State.resolve; split <;> rfl

/-! `countPort` -/
@[simp] theorem State.countPort_cfg (s : State) : (s.countPort).cfg = s.cfg := by unfold State.countPort; (repeat' split) <;> rfl
@[simp] theorem State.countPort_imem (s : State) : (s.countPort).imem = s.imem := by unfold State.countPort; (repeat' split) <;> rfl
@[simp] theorem State.countPort_rf (s : State) : (s.countPort).rf = s.rf := by unfold State.countPort; (repeat' split) <;> rfl
@[simp] theorem State.countPort_archPc (s : State) : (s.countPort).archPc = s.archPc := by unfold State.countPort; (repeat' split) <;> rfl
@[simp] theorem State.countPort_mem (s : State) : (s.countPort).mem = s.mem := by unfold State.countPort; (repeat' split) <;> rfl
@[simp] theorem State.countPort_rob (s : State) : (s.countPort).rob = s.rob := by unfold State.countPort; (repeat' split) <;> rfl
@[simp] theorem State.countPort_robHead (s : State) : (s.countPort).robHead = s.robHead := by unfold State.countPort; (repeat' split) <;> rfl
@[simp] theorem State.countPort_robTail (s : State) : (s.countPort).robTail = s.robTail := by unfold State.countPort; (repeat' split) <;> rfl
@[simp] theorem State.countPort_robCount (s : State) : (s.countPort).robCount = s.robCount := by unfold State.countPort; (repeat' split) <;> rfl
@[simp] theorem State.countPort_rs (s : State) : (s.countPort).rs = s.rs := by unfold State.countPort; (repeat' split) <;> rfl
@[simp] theorem State.countPort_fu (s : State) : (s.countPort).fu = s.fu := by unfold State.countPort; (repeat' split) <;> rfl
@[simp] theorem State.countPort_lsq (s : State) : (s.countPort).lsq = s.lsq := by unfold State.countPort; (repeat' split) <;> rfl
@[simp] theorem State.countPort_fb (s : State) : (s.countPort).fb = s.fb := by unfold State.countPort; (repeat' split) <;> rfl
@[simp] theorem State.countPort_dl (s : State) : (s.countPort).dl = s.dl := by unfold State.countPort; (repeat' split) <;> rfl
@[simp] theorem State.countPort_seqNext (s : State) : (s.countPort).seqNext = s.seqNext := by unfold State.countPort; (repeat' split) <;> rfl
@[simp] theorem State.countPort_cycle (s : State) : (s.countPort).cycle = s.cycle := by unfold State.countPort; (repeat' split) <;> rfl
@[simp] theorem State.countPort_outcome (s : State) : (s.countPort).outcome = s.outcome := by unfold State.countPort; (repeat' split) <;> rfl
@[simp] theorem State.countPort_metrics (s : State) : (s.countPort).metrics = s.metrics := by unfold State.countPort; (repeat' split) <;> rfl
@[simp] theorem State.countPort_fetch (s : State) : (s.countPort).fetch = s.fetch := by unfold State.countPort; (repeat' split) <;> rfl
@[simp] theorem State.countPort_pred (s : State) : (s.countPort).pred = s.pred := by unfold State.countPort; (repeat' split) <;> rfl
@[simp] theorem State.countPort_icache (s : State) : (s.countPort).icache = s.icache := by unfold State.countPort; (repeat' split) <;> rfl
@[simp] theorem State.countPort_dcache (s : State) : (s.countPort).dcache = s.dcache := by unfold State.countPort; (repeat' split) <;> rfl
@[simp] theorem State.countPort_driver (s : State) : (s.countPort).driver = s.driver := by unfold State.countPort; (repeat' split) <;> rfl

/-! `renameDest` -/
@[simp] theorem State.renameDest_cfg (s : State) (d : Option Reg) (t : Nat) : (s.renameDest d t).cfg = s.cfg := by unfold State.renameDest; split <;> simp
@[simp] theorem State.renameDest_imem (s : State) (d : Option Reg) (t : Nat) : (s.renameDest d t).imem = s.imem := by unfold State.renameDest; split <;> simp
@[simp] theorem State.renameDest_archPc (s : State) (d : Option Reg) (t : Nat) : (s.renameDest d t).archPc = s.archPc := by unfold State.renameDest; split <;> simp
@[simp] theorem State.renameDest_mem (s : State) (d : Option Reg) (t : Nat) : (s.renameDest d t).mem = s.mem := by unfold State.renameDest; split <;> simp
@[simp] theorem State.renameDest_rob (s : State) (d : Option Reg) (t : Nat) : (s.renameDest d t).rob = s.rob := by unfold State.renameDest; split <;> simp
@[simp] theorem State.renameDest_robHead (s : State) (d : Option Reg) (t : Nat) : (s.renameDest d t).robHead = s.robHead := by unfold State.renameDest; split <;> simp
@[simp] theorem State.renameDest_robTail (s : State) (d : Option Reg) (t : Nat) : (s.renameDest d t).robTail = s.robTail := by unfold State.renameDest; split <;> simp
@[simp] theorem State.renameDest_robCount (s : State) (d : Option Reg) (t : Nat) : (s.renameDest d t).robCount = s.robCount := by unfold State.renameDest; split <;> simp
@[simp] theorem State.renameDest_rs (s : State) (d : Option Reg) (t : Nat) : (s.renameDest d t).rs = s.rs := by unfold State.renameDest; split <;> simp
@[simp] theorem State.renameDest_fu (s : State) (d : Option Reg) (t : Nat) : (s.renameDest d t).fu = s.fu := by unfold State.renameDest; split <;> simp
@[simp] theorem State.renameDest_cdbq (s : State) (d : Option Reg) (t : Nat) : (s.renameDest d t).cdbq = s.cdbq := by unfold State.renameDest; split <;> simp
@[simp] theorem State.renameDest_lsq (s : State) (d : Option Reg) (t : Nat) : (s.renameDest d t).lsq = s.lsq := by unfold State.renameDest; split <;> simp
@[simp] theorem State.renameDest_mport (s : State) (d : Option Reg) (t : Nat) : (s.renameDest d t).mport = s.mport := by unfold State.renameDest; split <;> simp
@[simp] theorem State.renameDest_fb (s : State) (d : Option Reg) (t : Nat) : (s.renameDest d t).fb = s.fb := by unfold State.renameDest; split <;> simp
@[simp] theorem State.renameDest_dl (s : State) (d : Option Reg) (t : Nat) : (s.renameDest d t).dl = s.dl := by unfold State.renameDest; split <;> simp
@[simp] theorem State.renameDest_seqNext (s : State) (d : Option Reg) (t : Nat) : (s.renameDest d t).seqNext = s.seqNext := by unfold State.renameDest; split <;> simp
@[simp] theorem State.renameDest_cycle (s : State) (d : Option Reg) (t : Nat) : (s.renameDest d t).cycle = s.cycle := by unfold State.renameDest; split <;> simp
@[simp] theorem State.renameDest_outcome (s : State) (d : Option Reg) (t : Nat) : (s.renameDest d t).outcome = s.outcome := by unfold State.renameDest; split <;> simp
@[simp] theorem State.renameDest_metrics (s : State) (d : Option Reg) (t : Nat) : (s.renameDest d t).metrics = s.metrics := by unfold State.renameDest; split <;> simp
@[simp] theorem State.renameDest_fetch (s : State) (d : Option Reg) (t : Nat) : (s.renameDest d t).fetch = s.fetch := by unfold State.renameDest; split <;> simp
@[simp] theorem State.renameDest_pred (s : State) (d : Option Reg) (t : Nat) : (s.renameDest d t).pred = s.pred := by unfold State.renameDest; split <;> simp
@[simp] theorem State.renameDest_icache (s : State) (d : Option Reg) (t : Nat) : (s.renameDest d t).icache = s.icache := by unfold State.renameDest; split <;> simp
@[simp] theorem State.renameDest_dcache (s : State) (d : Option Reg) (t : Nat) : (s.renameDest d t).dcache = s.dcache := by unfold State.renameDest; split <;> simp
@[simp] theorem State.renameDest_driver (s : State) (d : Option Reg) (t : Nat) : (s.renameDest d t).driver = s.driver := by unfold State.renameDest; split <;> simp

/-! `allocateLsq` -/
@[simp] theorem State.allocateLsq_cfg (s : State) (b : Option InstrRecord) (q t : Nat) : (s.allocateLsq b q t).cfg = s.cfg := by unfold State.allocateLsq; split <;> rfl
@[simp] theorem State.allocateLsq_imem (s : State) (b : Option InstrRecord) (q t : Nat) : (s.allocateLsq b q t).imem = s.imem := by unfold State.allocateLsq; split <;> rfl
@[simp] theorem State.allocateLsq_rf (s : State) (b : Option InstrRecord) (q t : Nat) : (s.allocateLsq b q t).rf = s.rf := by unfold State.allocateLsq; split <;> rfl
@[simp] theorem State.allocateLsq_archPc (s : State) (b : Option InstrRecord) (q t : Nat) : (s.allocateLsq b q t).archPc = s.archPc := by unfold State.allocateLsq; split <;> rfl
@[simp] theorem State.allocateLsq_mem (s : State) (b : Option InstrRecord) (q t : Nat) : (s.allocateLsq b q t).mem = s.mem := by unfold State.allocateLsq; split <;> rfl
@[simp] theorem State.allocateLsq_rob (s : State) (b : Option InstrRecord) (q t : Nat) : (s.allocateLsq b q t).rob = s.rob := by unfold State.allocateLsq; split <;> rfl
@[simp] theorem State.allocateLsq_robHead (s : State) (b : Option InstrRecord) (q t : Nat) : (s.allocateLsq b q t).robHead = s.robHead := by unfold State.allocateLsq; split <;> rfl
@[simp] theorem State.allocateLsq_robTail (s : State) (b : Option InstrRecord) (q t : Nat) : (s.allocateLsq b q t).robTail = s.robTail := by unfold State.allocateLsq; split <;> rfl
@[simp] theorem State.allocateLsq_robCount (s : State) (b : Option InstrRecord) (q t : Nat) : (s.allocateLsq b q t).robCount = s.robCount := by unfold State.allocateLsq; split <;> rfl
@[simp] theorem State.allocateLsq_rs (s : State) (b : Option InstrRecord) (q t : Nat) : (s.allocateLsq b q t).rs = s.rs := by unfold State.allocateLsq; split <;> rfl
@[simp] theorem State.allocateLsq_fu (s : State) (b : Option InstrRecord) (q t : Nat) : (s.allocateLsq b q t).fu = s.fu := by unfold State.allocateLsq; split <;> rfl
@[simp] theorem State.allocateLsq_cdbq (s : State) (b : Option InstrRecord) (q t : Nat) : (s.allocateLsq b q t).cdbq = s.cdbq := by unfold State.allocateLsq; split <;> rfl
@[simp] theorem State.allocateLsq_mport (s : State) (b : Option InstrRecord) (q t : Nat) : (s.allocateLsq b q t).mport = s.mport := by unfold State.allocateLsq; split <;> rfl
@[simp] theorem State.allocateLsq_fb (s : State) (b : Option InstrRecord) (q t : Nat) : (s.allocateLsq b q t).fb = s.fb := by unfold State.allocateLsq; split <;> rfl
@[simp] theorem State.allocateLsq_dl (s : State) (b : Option InstrRecord) (q t : Nat) : (s.allocateLsq b q t).dl = s.dl := by unfold State.allocateLsq; split <;> rfl
@[simp] theorem State.allocateLsq_seqNext (s : State) (b : Option InstrRecord) (q t : Nat) : (s.allocateLsq b q t).seqNext = s.seqNext := by unfold State.allocateLsq; split <;> rfl
@[simp] theorem State.allocateLsq_cycle (s : State) (b : Option InstrRecord) (q t : Nat) : (s.allocateLsq b q t).cycle = s.cycle := by unfold State.allocateLsq; split <;> rfl
@[simp] theorem State.allocateLsq_outcome (s : State) (b : Option InstrRecord) (q t : Nat) : (s.allocateLsq b q t).outcome = s.outcome := by unfold State.allocateLsq; split <;> rfl
@[simp] theorem State.allocateLsq_metrics (s : State) (b : Option InstrRecord) (q t : Nat) : (s.allocateLsq b q t).metrics = s.metrics := by unfold State.allocateLsq; split <;> rfl
@[simp] theorem State.allocateLsq_fetch (s : State) (b : Option InstrRecord) (q t : Nat) : (s.allocateLsq b q t).fetch = s.fetch := by unfold State.allocateLsq; split <;> rfl
@[simp] theorem State.allocateLsq_pred (s : State) (b : Option InstrRecord) (q t : Nat) : (s.allocateLsq b q t).pred = s.pred := by unfold State.allocateLsq; split <;> rfl
@[simp] theorem State.allocateLsq_icache (s : State) (b : Option InstrRecord) (q t : Nat) : (s.allocateLsq b q t).icache = s.icache := by unfold State.allocateLsq; split <;> rfl
@[simp] theorem State.allocateLsq_dcache (s : State) (b : Option InstrRecord) (q t : Nat) : (s.allocateLsq b q t).dcache = s.dcache := by unfold State.allocateLsq; split <;> rfl
@[simp] theorem State.allocateLsq_driver (s : State) (b : Option InstrRecord) (q t : Nat) : (s.allocateLsq b q t).driver = s.driver := by unfold State.allocateLsq; split <;> rfl

/-! `fetchStalled` -/
@[simp] theorem State.fetchStalled_cfg (s : State) : (s.fetchStalled).cfg = s.cfg := rfl
@[simp] theorem State.fetchStalled_imem (s : State) : (s.fetchStalled).imem = s.imem := rfl
@[simp] theorem State.fetchStalled_rf (s : State) : (s.fetchStalled).rf = s.rf := rfl
@[simp] theorem State.fetchStalled_archPc (s : State) : (s.fetchStalled).archPc = s.archPc := rfl
@[simp] theorem State.fetchStalled_mem (s : State) : (s.fetchStalled).mem = s.mem := rfl
@[simp] theorem State.fetchStalled_rob (s : State) : (s.fetchStalled).rob = s.rob := rfl
@[simp] theorem State.fetchStalled_robHead (s : State) : (s.fetchStalled).robHead = s.robHead := rfl
@[simp] theorem State.fetchStalled_robTail (s : State) : (s.fetchStalled).robTail = s.robTail := rfl
@[simp] theorem State.fetchStalled_robCount (s : State) : (s.fetchStalled).robCount = s.robCount := rfl
@[simp] theorem State.fetchStalled_rs (s : State) : (s.fetchStalled).rs = s.rs := rfl
@[simp] theorem State.fetchStalled_fu (s : State) : (s.fetchStalled).fu = s.fu := rfl
@[simp] theorem State.fetchStalled_cdbq (s : State) : (s.fetchStalled).cdbq = s.cdbq := rfl
@[simp] theorem State.fetchStalled_lsq (s : State) : (s.fetchStalled).lsq = s.lsq := rfl
@[simp] theorem State.fetchStalled_mport (s : State) : (s.fetchStalled).mport = s.mport := rfl
@[simp] theorem State.fetchStalled_fb (s : State) : (s.fetchStalled).fb = s.fb := rfl
@[simp] theorem State.fetchStalled_dl (s : State) : (s.fetchStalled).dl = s.dl := rfl
@[simp] theorem State.fetchStalled_seqNext (s : State) : (s.fetchStalled).seqNext = s.seqNext := rfl
@[simp] theorem State.fetchStalled_cycle (s : State) : (s.fetchStalled).cycle = s.cycle := rfl
@[simp] theorem State.fetchStalled_outcome (s : State) : (s.fetchStalled).outcome = s.outcome := rfl
@[simp] theorem State.fetchStalled_fetch (s : State) :
    (s.fetchStalled).fetch = { s.fetch with stall := s.fetch.stall - 1 } := rfl
@[simp] theorem State.fetchStalled_pred (s : State) : (s.fetchStalled).pred = s.pred := rfl
@[simp] theorem State.fetchStalled_icache (s : State) : (s.fetchStalled).icache = s.icache := rfl
@[simp] theorem State.fetchStalled_dcache (s : State) : (s.fetchStalled).dcache = s.dcache := rfl
@[simp] theorem State.fetchStalled_driver (s : State) : (s.fetchStalled).driver = s.driver := rfl

/-! `limitCheck` -/
@[simp] theorem State.limitCheck_cfg (s : State) : (s.limitCheck).cfg = s.cfg := by unfold State.limitCheck; split <;> rfl
@[simp] theorem State.limitCheck_imem (s : State) : (s.limitCheck).imem = s.imem := by unfold State.limitCheck; split <;> rfl
@[simp] theorem State.limitCheck_rf (s : State) : (s.limitCheck).rf = s.rf := by unfold State.limitCheck; split <;> rfl
@[simp] theorem State.limitCheck_archPc (s : State) : (s.limitCheck).archPc = s.archPc := by unfold State.limitCheck; split <;> rfl
@[simp] theorem State.limitCheck_mem (s : State) : (s.limitCheck).mem = s.mem := by unfold State.limitCheck; split <;> rfl
@[simp] theorem State.limitCheck_rob (s : State) : (s.limitCheck).rob = s.rob := by unfold State.limitCheck; split <;> rfl
@[simp] theorem State.limitCheck_robHead (s : State) : (s.limitCheck).robHead = s.robHead := by unfold State.limitCheck; split <;> rfl
@[simp] theorem State.limitCheck_robTail (s : State) : (s.limitCheck).robTail = s.robTail := by unfold State.limitCheck; split <;> rfl
@[simp] theorem State.limitCheck_robCount (s : State) : (s.limitCheck).robCount = s.robCount := by unfold State.limitCheck; split <;> rfl
@[simp] theorem State.limitCheck_rs (s : State) : (s.limitCheck).rs = s.rs := by unfold State.limitCheck; split <;> rfl
@[simp] theorem State.limitCheck_fu (s : State) : (s.limitCheck).fu = s.fu := by unfold State.limitCheck; split <;> rfl
@[simp] theorem State.limitCheck_cdbq (s : State) : (s.limitCheck).cdbq = s.cdbq := by unfold State.limitCheck; split <;> rfl
@[simp] theorem State.limitCheck_lsq (s : State) : (s.limitCheck).lsq = s.lsq := by unfold State.limitCheck; split <;> rfl
@[simp] theorem State.limitCheck_mport (s : State) : (s.limitCheck).mport = s.mport := by unfold State.limitCheck; split <;> rfl
@[simp] theorem State.limitCheck_fb (s : State) : (s.limitCheck).fb = s.fb := by unfold State.limitCheck; split <;> rfl
@[simp] theorem State.limitCheck_dl (s : State) : (s.limitCheck).dl = s.dl := by unfold State.limitCheck; split <;> rfl
@[simp] theorem State.limitCheck_seqNext (s : State) : (s.limitCheck).seqNext = s.seqNext := by unfold State.limitCheck; split <;> rfl
@[simp] theorem State.limitCheck_cycle (s : State) : (s.limitCheck).cycle = s.cycle := by unfold State.limitCheck; split <;> rfl
@[simp] theorem State.limitCheck_metrics (s : State) : (s.limitCheck).metrics = s.metrics := by unfold State.limitCheck; split <;> rfl
@[simp] theorem State.limitCheck_fetch (s : State) : (s.limitCheck).fetch = s.fetch := by unfold State.limitCheck; split <;> rfl
@[simp] theorem State.limitCheck_pred (s : State) : (s.limitCheck).pred = s.pred := by unfold State.limitCheck; split <;> rfl
@[simp] theorem State.limitCheck_icache (s : State) : (s.limitCheck).icache = s.icache := by unfold State.limitCheck; split <;> rfl
@[simp] theorem State.limitCheck_dcache (s : State) : (s.limitCheck).dcache = s.dcache := by unfold State.limitCheck; split <;> rfl
@[simp] theorem State.limitCheck_driver (s : State) : (s.limitCheck).driver = s.driver := by unfold State.limitCheck; split <;> rfl

end Sys2Proof.Machine
end

