-- ==== Sys2Proof/Laws/Tables.lean ====
section
/-!
SUPPORT. The tables of the pipeline: reading and updating an entry, the first entry that meets a test, the entry with the
lowest key.
-/

namespace Sys2Proof.Machine

@[simp] theorem length_updateAt {α : Type} (f : α → α) (l : List α) (i : Nat) :
    (updateAt f l i).length = l.length := by
  induction l generalizing i with
  | nil => rfl
  | cons x xs ih => cases i <;> simp [updateAt, ih]

theorem entryAt_eq_getD {α : Type} (d : α) (l : List α) (i : Nat) : entryAt d l i = l.getD i d := by
  induction l generalizing i with
  | nil => rfl
  | cons x xs ih => cases i <;> simp [entryAt, ih]

theorem getElem?_updateAt {α : Type} (f : α → α) (l : List α) (i j : Nat) :
    (updateAt f l i)[j]? = if j = i then l[j]?.map f else l[j]? := by
  induction l generalizing i j with
  | nil => simp [updateAt]
  | cons x xs ih => cases i <;> cases j <;> simp [updateAt, ih]

/-- An entry of an updated table is an entry of the table, or the changed one. -/
theorem mem_updateAt {α : Type} {f : α → α} {l : List α} {i : Nat} {x : α} (h : x ∈ updateAt f l i) :
    x ∈ l ∨ ∃ y, y ∈ l ∧ x = f y := by
  obtain ⟨j, hj⟩ := List.mem_iff_getElem?.1 h
  rw [getElem?_updateAt] at hj
  split at hj
  · obtain ⟨y, hy, rfl⟩ := Option.map_eq_some_iff.1 hj
    exact .inr ⟨y, List.mem_of_getElem? hy, rfl⟩
  · exact .inl (List.mem_of_getElem? hj)

/-- An updated entry of the table is the changed entry, every other entry is as before. -/
theorem entryAt_updateAt {α : Type} (d : α) (f : α → α) (l : List α) (i j : Nat) :
    entryAt d (updateAt f l i) j = if j = i ∧ j < l.length then f (entryAt d l j) else entryAt d l j := by
  simp only [entryAt_eq_getD, List.getD_eq_getElem?_getD, getElem?_updateAt]
  by_cases h : j = i
  · by_cases hl : j < l.length
    · simp only [if_pos h, if_pos (And.intro h hl), List.getElem?_eq_getElem hl, Option.map_some, Option.getD_some]
    · rw [if_pos h, if_neg (fun c => hl c.2), List.getElem?_eq_none (Nat.le_of_not_lt hl)]
      rfl
  · simp [h]

/-- What holds of every entry and of the default holds at every position. -/
theorem forall_entryAt {α : Type} {P : α → Prop} {d : α} {l : List α} (h : ∀ x, x ∈ d :: l → P x) (i : Nat) :
    P (entryAt d l i) := by
  apply h
  rw [entryAt_eq_getD, List.getD_eq_getElem?_getD]
  rcases Nat.lt_or_ge i l.length with hi | hi
  · rw [List.getElem?_eq_getElem hi]
    exact List.mem_cons_of_mem _ (List.getElem_mem hi)
  · rw [List.getElem?_eq_none hi]
    exact List.mem_cons_self

/-- The first entry that meets `p`: it is in the table, it meets `p`, and no entry before it does. -/
theorem firstIdx_some {α : Type} {p : α → Bool} {l : List α} {i : Nat} (h : firstIdx p l = some i) :
    ∃ x, l[i]? = some x ∧ p x = true ∧ ∀ j y, j < i → l[j]? = some y → p y = false := by
  induction l generalizing i with
  | nil => simp [firstIdx] at h
  | cons x xs ih =>
    unfold firstIdx at h
    split at h
    · rename_i hp
      obtain rfl : 0 = i := by simpa using h
      exact ⟨x, by simp, hp, by omega⟩
    · rename_i hp
      obtain ⟨k, hk, rfl⟩ : ∃ k, firstIdx p xs = some k ∧ k + 1 = i := by simpa using h
      obtain ⟨y, hy, hpy, hb⟩ := ih hk
      refine ⟨y, by simpa using hy, hpy, fun j z hj hz => ?_⟩
      cases j with
      | zero =>
        obtain rfl : x = z := by simpa using hz
        simpa using hp
      | succ j => exact hb j z (by omega) (by simpa using hz)

theorem firstIdx_none {α : Type} {p : α → Bool} {l : List α} :
    firstIdx p l = none ↔ ∀ x, x ∈ l → p x = false := by
  induction l with
  | nil => simp [firstIdx]
  | cons x xs ih =>
    unfold firstIdx
    cases hp : p x <;> simp [hp, ih]

/-- The entry `lowestIdx` picks is in the table, has the key it answers, and no entry has a lower key. -/
theorem lowestIdx_some {α : Type} {key : α → Option Nat} {l : List α} {i k : Nat}
    (h : lowestIdx key l = some (i, k)) :
    ∃ x, l[i]? = some x ∧ key x = some k ∧ ∀ y q, y ∈ l → key y = some q → k ≤ q := by
  induction l generalizing i k with
  | nil => simp [lowestIdx] at h
  | cons x xs ih =>
    have none_of : lowestIdx key xs = none → ∀ y q, y ∈ xs → key y ≠ some q := by
      clear ih h
      induction xs with
      | nil => simp
      | cons z zs ih =>
        intro hz y q hy hq
        unfold lowestIdx at hz
        rcases List.mem_cons.1 hy with rfl | hy
        · rw [hq] at hz
          cases hl : lowestIdx key zs <;> rw [hl] at hz <;> simp at hz
          split at hz <;> simp at hz
        · cases hk : key z <;> cases hl : lowestIdx key zs <;> rw [hk, hl] at hz <;> simp at hz
          · exact ih hl y q hy hq
          · split at hz <;> simp at hz
    cases hx : key x with
    | none =>
      cases hl : lowestIdx key xs with
      | none => simp [lowestIdx, hx, hl] at h
      | some c =>
        obtain ⟨j, m⟩ := c
        obtain ⟨rfl, rfl⟩ : j + 1 = i ∧ m = k := by simpa [lowestIdx, hx, hl] using h
        obtain ⟨y, hy, hky, hmin⟩ := ih hl
        refine ⟨y, by simpa using hy, hky, fun z q hz hq => ?_⟩
        rcases List.mem_cons.1 hz with rfl | hz
        · simp [hx] at hq
        · exact hmin z q hz hq
    | some k₀ =>
      cases hl : lowestIdx key xs with
      | none =>
        obtain ⟨rfl, rfl⟩ : 0 = i ∧ k₀ = k := by simpa [lowestIdx, hx, hl] using h
        refine ⟨x, by simp, hx, fun z q hz hq => ?_⟩
        rcases List.mem_cons.1 hz with rfl | hz
        · exact le_of_eq (by simpa [hx] using hq)
        · exact absurd hq (none_of hl z q hz)
      | some c =>
        obtain ⟨j, m⟩ := c
        obtain ⟨y, hy, hky, hmin⟩ := ih hl
        by_cases hle : k₀ ≤ m
        · obtain ⟨rfl, rfl⟩ : 0 = i ∧ k₀ = k := by simpa [lowestIdx, hx, hl, hle] using h
          refine ⟨x, by simp, hx, fun z q hz hq => ?_⟩
          rcases List.mem_cons.1 hz with rfl | hz
          · exact le_of_eq (by simpa [hx] using hq)
          · exact le_trans hle (hmin z q hz hq)
        · obtain ⟨rfl, rfl⟩ : j + 1 = i ∧ m = k := by simpa [lowestIdx, hx, hl, hle] using h
          refine ⟨y, by simpa using hy, hky, fun z q hz hq => ?_⟩
          rcases List.mem_cons.1 hz with rfl | hz
          · rw [hx] at hq
            have : k₀ = q := by simpa using hq
            omega
          · exact hmin z q hz hq

/-- Of several entries with the lowest key `lowestIdx` picks the first. -/
theorem lowestIdx_first {α : Type} {key : α → Option Nat} {l : List α} {i k : Nat}
    (h : lowestIdx key l = some (i, k)) :
    ∀ j y q, j < i → l[j]? = some y → key y = some q → k < q := by
  induction l generalizing i k with
  | nil => simp [lowestIdx] at h
  | cons x xs ih =>
    unfold lowestIdx at h
    intro j y q hj hy hq
    have later : ∀ i', lowestIdx key xs = some (i', k) → i = i' + 1 → (∀ q₀, key x = some q₀ → k < q₀) → k < q := by
      intro i' hl hi hx
      cases j with
      | zero => exact hx q (by simpa [show x = y by simpa using hy] using hq)
      | succ j => exact ih hl j y q (by omega) (by simpa using hy) hq
    split at h <;> rename_i h1 h2
    · cases h
    · obtain ⟨hi, rfl⟩ : _ ∧ _ := by simpa using h
      exact later _ h2 hi.symm (by simp [h1])
    · obtain ⟨rfl, -⟩ : _ ∧ _ := by simpa using h
      omega
    · split at h <;> obtain ⟨hi, rfl⟩ : _ ∧ _ := by simpa using h
      · omega
      · exact later _ h2 hi.symm (fun q₀ hx => by
          obtain rfl : _ = q₀ := Option.some.inj (h1.symm.trans hx)
          omega)

theorem lowestIdx_none {α : Type} {key : α → Option Nat} {l : List α} :
    lowestIdx key l = none ↔ ∀ x, x ∈ l → key x = none := by
  induction l with
  | nil => simp [lowestIdx]
  | cons x xs ih =>
    unfold lowestIdx
    cases hx : key x with
    | none => cases hl : lowestIdx key xs <;> simp [hx, ← ih, hl]
    | some k =>
      cases hl : lowestIdx key xs with
      | none => simp [hx]
      | some c =>
        simp only [List.mem_cons, forall_eq_or_imp, hx]
        split <;> simp

/-- The entry at a position of the table. -/
@[simp] theorem State.robAt_updateRob (s : State) (t u : Nat) (f : RobEntry → RobEntry) :
    (s.updateRob t f).robAt u = if u = t ∧ u < s.rob.length then f (s.robAt u) else s.robAt u := by
  simp only [State.robAt, State.updateRob, entryAt_updateAt]

@[simp] theorem PerClass.get_set {α : Type} (p : PerClass α) (k j : FuClass) (v : α) :
    (p.set k v).get j = if j = k then v else p.get j := by
  cases k <;> cases j <;> rfl

@[simp] theorem PerClass.get_map {α β : Type} (f : α → β) (p : PerClass α) (k : FuClass) :
    (p.map f).get k = f (p.get k) := by
  cases k <;> rfl

end Sys2Proof.Machine
end

