-- ==== Sys2Proof/Laws/Frames.lean ====
section
/-!
SUPPORT. What each stage of a tick leaves alone: one lemma per field, over the loops the stages are made of.
-/

namespace Sys2Proof.Machine

/-- The fields `State.dcacheAccess` leaves alone. -/
theorem State.dcacheAccess_frame (s : State) (w : Bool) (a : Word) :
    ((s.dcacheAccess w a).2).cfg = s.cfg ∧
    ((s.dcacheAccess w a).2).imem = s.imem ∧
    ((s.dcacheAccess w a).2).rf = s.rf ∧
    ((s.dcacheAccess w a).2).archPc = s.archPc ∧
    ((s.dcacheAccess w a).2).mem = s.mem ∧
    ((s.dcacheAccess w a).2).rob = s.rob ∧
    ((s.dcacheAccess w a).2).robHead = s.robHead ∧
    ((s.dcacheAccess w a).2).robTail = s.robTail ∧
    ((s.dcacheAccess w a).2).robCount = s.robCount ∧
    ((s.dcacheAccess w a).2).rs = s.rs ∧
    ((s.dcacheAccess w a).2).fu = s.fu ∧
    ((s.dcacheAccess w a).2).cdbq = s.cdbq ∧
    ((s.dcacheAccess w a).2).lsq = s.lsq ∧
    ((s.dcacheAccess w a).2).mport = s.mport ∧
    ((s.dcacheAccess w a).2).fb = s.fb ∧
    ((s.dcacheAccess w a).2).dl = s.dl ∧
    ((s.dcacheAccess w a).2).seqNext = s.seqNext ∧
    ((s.dcacheAccess w a).2).cycle = s.cycle ∧
    ((s.dcacheAccess w a).2).outcome = s.outcome ∧
    ((s.dcacheAccess w a).2).fetch = s.fetch ∧
    ((s.dcacheAccess w a).2).pred = s.pred ∧
    ((s.dcacheAccess w a).2).icache = s.icache ∧
    ((s.dcacheAccess w a).2).driver = s.driver := by
  simp [State.dcacheAccess]

@[simp] theorem State.dcacheAccess_cfg (s : State) (w : Bool) (a : Word) : ((s.dcacheAccess w a).2).cfg = s.cfg := (State.dcacheAccess_frame s w a).1
@[simp] theorem State.dcacheAccess_imem (s : State) (w : Bool) (a : Word) : ((s.dcacheAccess w a).2).imem = s.imem := (State.dcacheAccess_frame s w a).2.1
@[simp] theorem State.dcacheAccess_rf (s : State) (w : Bool) (a : Word) : ((s.dcacheAccess w a).2).rf = s.rf := (State.dcacheAccess_frame s w a).2.2.1
@[simp] theorem State.dcacheAccess_archPc (s : State) (w : Bool) (a : Word) : ((s.dcacheAccess w a).2).archPc = s.archPc := (State.dcacheAccess_frame s w a).2.2.2.1
@[simp] theorem State.dcacheAccess_mem (s : State) (w : Bool) (a : Word) : ((s.dcacheAccess w a).2).mem = s.mem := (State.dcacheAccess_frame s w a).2.2.2.2.1
@[simp] theorem State.dcacheAccess_rob (s : State) (w : Bool) (a : Word) : ((s.dcacheAccess w a).2).rob = s.rob := (State.dcacheAccess_frame s w a).2.2.2.2.2.1
@[simp] theorem State.dcacheAccess_robHead (s : State) (w : Bool) (a : Word) : ((s.dcacheAccess w a).2).robHead = s.robHead := (State.dcacheAccess_frame s w a).2.2.2.2.2.2.1
@[simp] theorem State.dcacheAccess_robTail (s : State) (w : Bool) (a : Word) : ((s.dcacheAccess w a).2).robTail = s.robTail := (State.dcacheAccess_frame s w a).2.2.2.2.2.2.2.1
@[simp] theorem State.dcacheAccess_robCount (s : State) (w : Bool) (a : Word) : ((s.dcacheAccess w a).2).robCount = s.robCount := (State.dcacheAccess_frame s w a).2.2.2.2.2.2.2.2.1
@[simp] theorem State.dcacheAccess_rs (s : State) (w : Bool) (a : Word) : ((s.dcacheAccess w a).2).rs = s.rs := (State.dcacheAccess_frame s w a).2.2.2.2.2.2.2.2.2.1
@[simp] theorem State.dcacheAccess_fu (s : State) (w : Bool) (a : Word) : ((s.dcacheAccess w a).2).fu = s.fu := (State.dcacheAccess_frame s w a).2.2.2.2.2.2.2.2.2.2.1
@[simp] theorem State.dcacheAccess_cdbq (s : State) (w : Bool) (a : Word) : ((s.dcacheAccess w a).2).cdbq = s.cdbq := (State.dcacheAccess_frame s w a).2.2.2.2.2.2.2.2.2.2.2.1
@[simp] theorem State.dcacheAccess_lsq (s : State) (w : Bool) (a : Word) : ((s.dcacheAccess w a).2).lsq = s.lsq := (State.dcacheAccess_frame s w a).2.2.2.2.2.2.2.2.2.2.2.2.1
@[simp] theorem State.dcacheAccess_mport (s : State) (w : Bool) (a : Word) : ((s.dcacheAccess w a).2).mport = s.mport := (State.dcacheAccess_frame s w a).2.2.2.2.2.2.2.2.2.2.2.2.2.1
@[simp] theorem State.dcacheAccess_fb (s : State) (w : Bool) (a : Word) : ((s.dcacheAccess w a).2).fb = s.fb := (State.dcacheAccess_frame s w a).2.2.2.2.2.2.2.2.2.2.2.2.2.2.1
@[simp] theorem State.dcacheAccess_dl (s : State) (w : Bool) (a : Word) : ((s.dcacheAccess w a).2).dl = s.dl := (State.dcacheAccess_frame s w a).2.2.2.2.2.2.2.2.2.2.2.2.2.2.2.1
@[simp] theorem State.dcacheAccess_seqNext (s : State) (w : Bool) (a : Word) : ((s.dcacheAccess w a).2).seqNext = s.seqNext := (State.dcacheAccess_frame s w a).2.2.2.2.2.2.2.2.2.2.2.2.2.2.2.2.1
@[simp] theorem State.dcacheAccess_cycle (s : State) (w : Bool) (a : Word) : ((s.dcacheAccess w a).2).cycle = s.cycle := (State.dcacheAccess_frame s w a).2.2.2.2.2.2.2.2.2.2.2.2.2.2.2.2.2.1
@[simp] theorem State.dcacheAccess_outcome (s : State) (w : Bool) (a : Word) : ((s.dcacheAccess w a).2).outcome = s.outcome := (State.dcacheAccess_frame s w a).2.2.2.2.2.2.2.2.2.2.2.2.2.2.2.2.2.2.1
@[simp] theorem State.dcacheAccess_fetch (s : State) (w : Bool) (a : Word) : ((s.dcacheAccess w a).2).fetch = s.fetch := (State.dcacheAccess_frame s w a).2.2.2.2.2.2.2.2.2.2.2.2.2.2.2.2.2.2.2.1
@[simp] theorem State.dcacheAccess_pred (s : State) (w : Bool) (a : Word) : ((s.dcacheAccess w a).2).pred = s.pred := (State.dcacheAccess_frame s w a).2.2.2.2.2.2.2.2.2.2.2.2.2.2.2.2.2.2.2.2.1
@[simp] theorem State.dcacheAccess_icache (s : State) (w : Bool) (a : Word) : ((s.dcacheAccess w a).2).icache = s.icache := (State.dcacheAccess_frame s w a).2.2.2.2.2.2.2.2.2.2.2.2.2.2.2.2.2.2.2.2.2.1
@[simp] theorem State.dcacheAccess_driver (s : State) (w : Bool) (a : Word) : ((s.dcacheAccess w a).2).driver = s.driver := (State.dcacheAccess_frame s w a).2.2.2.2.2.2.2.2.2.2.2.2.2.2.2.2.2.2.2.2.2.2

/-- The fields `State.icacheRead` leaves alone. -/
theorem State.icacheRead_frame (s : State) (p : Word) :
    ((s.icacheRead p).2).cfg = s.cfg ∧
    ((s.icacheRead p).2).imem = s.imem ∧
    ((s.icacheRead p).2).rf = s.rf ∧
    ((s.icacheRead p).2).archPc = s.archPc ∧
    ((s.icacheRead p).2).mem = s.mem ∧
    ((s.icacheRead p).2).rob = s.rob ∧
    ((s.icacheRead p).2).robHead = s.robHead ∧
    ((s.icacheRead p).2).robTail = s.robTail ∧
    ((s.icacheRead p).2).robCount = s.robCount ∧
    ((s.icacheRead p).2).rs = s.rs ∧
    ((s.icacheRead p).2).fu = s.fu ∧
    ((s.icacheRead p).2).cdbq = s.cdbq ∧
    ((s.icacheRead p).2).lsq = s.lsq ∧
    ((s.icacheRead p).2).mport = s.mport ∧
    ((s.icacheRead p).2).fb = s.fb ∧
    ((s.icacheRead p).2).dl = s.dl ∧
    ((s.icacheRead p).2).seqNext = s.seqNext ∧
    ((s.icacheRead p).2).cycle = s.cycle ∧
    ((s.icacheRead p).2).outcome = s.outcome ∧
    ((s.icacheRead p).2).fetch = s.fetch ∧
    ((s.icacheRead p).2).pred = s.pred ∧
    ((s.icacheRead p).2).dcache = s.dcache ∧
    ((s.icacheRead p).2).driver = s.driver := by
  simp [State.icacheRead]

@[simp] theorem State.icacheRead_cfg (s : State) (p : Word) : ((s.icacheRead p).2).cfg = s.cfg := (State.icacheRead_frame s p).1
@[simp] theorem State.icacheRead_imem (s : State) (p : Word) : ((s.icacheRead p).2).imem = s.imem := (State.icacheRead_frame s p).2.1
@[simp] theorem State.icacheRead_rf (s : State) (p : Word) : ((s.icacheRead p).2).rf = s.rf := (State.icacheRead_frame s p).2.2.1
@[simp] theorem State.icacheRead_archPc (s : State) (p : Word) : ((s.icacheRead p).2).archPc = s.archPc := (State.icacheRead_frame s p).2.2.2.1
@[simp] theorem State.icacheRead_mem (s : State) (p : Word) : ((s.icacheRead p).2).mem = s.mem := (State.icacheRead_frame s p).2.2.2.2.1
@[simp] theorem State.icacheRead_rob (s : State) (p : Word) : ((s.icacheRead p).2).rob = s.rob := (State.icacheRead_frame s p).2.2.2.2.2.1
@[simp] theorem State.icacheRead_robHead (s : State) (p : Word) : ((s.icacheRead p).2).robHead = s.robHead := (State.icacheRead_frame s p).2.2.2.2.2.2.1
@[simp] theorem State.icacheRead_robTail (s : State) (p : Word) : ((s.icacheRead p).2).robTail = s.robTail := (State.icacheRead_frame s p).2.2.2.2.2.2.2.1
@[simp] theorem State.icacheRead_robCount (s : State) (p : Word) : ((s.icacheRead p).2).robCount = s.robCount := (State.icacheRead_frame s p).2.2.2.2.2.2.2.2.1
@[simp] theorem State.icacheRead_rs (s : State) (p : Word) : ((s.icacheRead p).2).rs = s.rs := (State.icacheRead_frame s p).2.2.2.2.2.2.2.2.2.1
@[simp] theorem State.icacheRead_fu (s : State) (p : Word) : ((s.icacheRead p).2).fu = s.fu := (State.icacheRead_frame s p).2.2.2.2.2.2.2.2.2.2.1
@[simp] theorem State.icacheRead_cdbq (s : State) (p : Word) : ((s.icacheRead p).2).cdbq = s.cdbq := (State.icacheRead_frame s p).2.2.2.2.2.2.2.2.2.2.2.1
@[simp] theorem State.icacheRead_lsq (s : State) (p : Word) : ((s.icacheRead p).2).lsq = s.lsq := (State.icacheRead_frame s p).2.2.2.2.2.2.2.2.2.2.2.2.1
@[simp] theorem State.icacheRead_mport (s : State) (p : Word) : ((s.icacheRead p).2).mport = s.mport := (State.icacheRead_frame s p).2.2.2.2.2.2.2.2.2.2.2.2.2.1
@[simp] theorem State.icacheRead_fb (s : State) (p : Word) : ((s.icacheRead p).2).fb = s.fb := (State.icacheRead_frame s p).2.2.2.2.2.2.2.2.2.2.2.2.2.2.1
@[simp] theorem State.icacheRead_dl (s : State) (p : Word) : ((s.icacheRead p).2).dl = s.dl := (State.icacheRead_frame s p).2.2.2.2.2.2.2.2.2.2.2.2.2.2.2.1
@[simp] theorem State.icacheRead_seqNext (s : State) (p : Word) : ((s.icacheRead p).2).seqNext = s.seqNext := (State.icacheRead_frame s p).2.2.2.2.2.2.2.2.2.2.2.2.2.2.2.2.1
@[simp] theorem State.icacheRead_cycle (s : State) (p : Word) : ((s.icacheRead p).2).cycle = s.cycle := (State.icacheRead_frame s p).2.2.2.2.2.2.2.2.2.2.2.2.2.2.2.2.2.1
@[simp] theorem State.icacheRead_outcome (s : State) (p : Word) : ((s.icacheRead p).2).outcome = s.outcome := (State.icacheRead_frame s p).2.2.2.2.2.2.2.2.2.2.2.2.2.2.2.2.2.2.1
@[simp] theorem State.icacheRead_fetch (s : State) (p : Word) : ((s.icacheRead p).2).fetch = s.fetch := (State.icacheRead_frame s p).2.2.2.2.2.2.2.2.2.2.2.2.2.2.2.2.2.2.2.1
@[simp] theorem State.icacheRead_pred (s : State) (p : Word) : ((s.icacheRead p).2).pred = s.pred := (State.icacheRead_frame s p).2.2.2.2.2.2.2.2.2.2.2.2.2.2.2.2.2.2.2.2.1
@[simp] theorem State.icacheRead_dcache (s : State) (p : Word) : ((s.icacheRead p).2).dcache = s.dcache := (State.icacheRead_frame s p).2.2.2.2.2.2.2.2.2.2.2.2.2.2.2.2.2.2.2.2.2.1
@[simp] theorem State.icacheRead_driver (s : State) (p : Word) : ((s.icacheRead p).2).driver = s.driver := (State.icacheRead_frame s p).2.2.2.2.2.2.2.2.2.2.2.2.2.2.2.2.2.2.2.2.2.2

/-- The fields `State.loadAccess` leaves alone. -/
theorem State.loadAccess_frame (s : State) (a : Word) (f : Option LsqEntry) :
    ((s.loadAccess a f).2.2).cfg = s.cfg ∧
    ((s.loadAccess a f).2.2).imem = s.imem ∧
    ((s.loadAccess a f).2.2).rf = s.rf ∧
    ((s.loadAccess a f).2.2).archPc = s.archPc ∧
    ((s.loadAccess a f).2.2).mem = s.mem ∧
    ((s.loadAccess a f).2.2).rob = s.rob ∧
    ((s.loadAccess a f).2.2).robHead = s.robHead ∧
    ((s.loadAccess a f).2.2).robTail = s.robTail ∧
    ((s.loadAccess a f).2.2).robCount = s.robCount ∧
    ((s.loadAccess a f).2.2).rs = s.rs ∧
    ((s.loadAccess a f).2.2).fu = s.fu ∧
    ((s.loadAccess a f).2.2).cdbq = s.cdbq ∧
    ((s.loadAccess a f).2.2).lsq = s.lsq ∧
    ((s.loadAccess a f).2.2).mport = s.mport ∧
    ((s.loadAccess a f).2.2).fb = s.fb ∧
    ((s.loadAccess a f).2.2).dl = s.dl ∧
    ((s.loadAccess a f).2.2).seqNext = s.seqNext ∧
    ((s.loadAccess a f).2.2).cycle = s.cycle ∧
    ((s.loadAccess a f).2.2).outcome = s.outcome ∧
    ((s.loadAccess a f).2.2).fetch = s.fetch ∧
    ((s.loadAccess a f).2.2).pred = s.pred ∧
    ((s.loadAccess a f).2.2).icache = s.icache ∧
    ((s.loadAccess a f).2.2).driver = s.driver := by
  unfold State.loadAccess
  cases f with
  | some st => simp
  | none => dsimp only; split <;> simp

@[simp] theorem State.loadAccess_cfg (s : State) (a : Word) (f : Option LsqEntry) : ((s.loadAccess a f).2.2).cfg = s.cfg := (State.loadAccess_frame s a f).1
@[simp] theorem State.loadAccess_imem (s : State) (a : Word) (f : Option LsqEntry) : ((s.loadAccess a f).2.2).imem = s.imem := (State.loadAccess_frame s a f).2.1
@[simp] theorem State.loadAccess_rf (s : State) (a : Word) (f : Option LsqEntry) : ((s.loadAccess a f).2.2).rf = s.rf := (State.loadAccess_frame s a f).2.2.1
@[simp] theorem State.loadAccess_archPc (s : State) (a : Word) (f : Option LsqEntry) : ((s.loadAccess a f).2.2).archPc = s.archPc := (State.loadAccess_frame s a f).2.2.2.1
@[simp] theorem State.loadAccess_mem (s : State) (a : Word) (f : Option LsqEntry) : ((s.loadAccess a f).2.2).mem = s.mem := (State.loadAccess_frame s a f).2.2.2.2.1
@[simp] theorem State.loadAccess_rob (s : State) (a : Word) (f : Option LsqEntry) : ((s.loadAccess a f).2.2).rob = s.rob := (State.loadAccess_frame s a f).2.2.2.2.2.1
@[simp] theorem State.loadAccess_robHead (s : State) (a : Word) (f : Option LsqEntry) : ((s.loadAccess a f).2.2).robHead = s.robHead := (State.loadAccess_frame s a f).2.2.2.2.2.2.1
@[simp] theorem State.loadAccess_robTail (s : State) (a : Word) (f : Option LsqEntry) : ((s.loadAccess a f).2.2).robTail = s.robTail := (State.loadAccess_frame s a f).2.2.2.2.2.2.2.1
@[simp] theorem State.loadAccess_robCount (s : State) (a : Word) (f : Option LsqEntry) : ((s.loadAccess a f).2.2).robCount = s.robCount := (State.loadAccess_frame s a f).2.2.2.2.2.2.2.2.1
@[simp] theorem State.loadAccess_rs (s : State) (a : Word) (f : Option LsqEntry) : ((s.loadAccess a f).2.2).rs = s.rs := (State.loadAccess_frame s a f).2.2.2.2.2.2.2.2.2.1
@[simp] theorem State.loadAccess_fu (s : State) (a : Word) (f : Option LsqEntry) : ((s.loadAccess a f).2.2).fu = s.fu := (State.loadAccess_frame s a f).2.2.2.2.2.2.2.2.2.2.1
@[simp] theorem State.loadAccess_cdbq (s : State) (a : Word) (f : Option LsqEntry) : ((s.loadAccess a f).2.2).cdbq = s.cdbq := (State.loadAccess_frame s a f).2.2.2.2.2.2.2.2.2.2.2.1
@[simp] theorem State.loadAccess_lsq (s : State) (a : Word) (f : Option LsqEntry) : ((s.loadAccess a f).2.2).lsq = s.lsq := (State.loadAccess_frame s a f).2.2.2.2.2.2.2.2.2.2.2.2.1
@[simp] theorem State.loadAccess_mport (s : State) (a : Word) (f : Option LsqEntry) : ((s.loadAccess a f).2.2).mport = s.mport := (State.loadAccess_frame s a f).2.2.2.2.2.2.2.2.2.2.2.2.2.1
@[simp] theorem State.loadAccess_fb (s : State) (a : Word) (f : Option LsqEntry) : ((s.loadAccess a f).2.2).fb = s.fb := (State.loadAccess_frame s a f).2.2.2.2.2.2.2.2.2.2.2.2.2.2.1
@[simp] theorem State.loadAccess_dl (s : State) (a : Word) (f : Option LsqEntry) : ((s.loadAccess a f).2.2).dl = s.dl := (State.loadAccess_frame s a f).2.2.2.2.2.2.2.2.2.2.2.2.2.2.2.1
@[simp] theorem State.loadAccess_seqNext (s : State) (a : Word) (f : Option LsqEntry) : ((s.loadAccess a f).2.2).seqNext = s.seqNext := (State.loadAccess_frame s a f).2.2.2.2.2.2.2.2.2.2.2.2.2.2.2.2.1
@[simp] theorem State.loadAccess_cycle (s : State) (a : Word) (f : Option LsqEntry) : ((s.loadAccess a f).2.2).cycle = s.cycle := (State.loadAccess_frame s a f).2.2.2.2.2.2.2.2.2.2.2.2.2.2.2.2.2.1
@[simp] theorem State.loadAccess_outcome (s : State) (a : Word) (f : Option LsqEntry) : ((s.loadAccess a f).2.2).outcome = s.outcome := (State.loadAccess_frame s a f).2.2.2.2.2.2.2.2.2.2.2.2.2.2.2.2.2.2.1
@[simp] theorem State.loadAccess_fetch (s : State) (a : Word) (f : Option LsqEntry) : ((s.loadAccess a f).2.2).fetch = s.fetch := (State.loadAccess_frame s a f).2.2.2.2.2.2.2.2.2.2.2.2.2.2.2.2.2.2.2.1
@[simp] theorem State.loadAccess_pred (s : State) (a : Word) (f : Option LsqEntry) : ((s.loadAccess a f).2.2).pred = s.pred := (State.loadAccess_frame s a f).2.2.2.2.2.2.2.2.2.2.2.2.2.2.2.2.2.2.2.2.1
@[simp] theorem State.loadAccess_icache (s : State) (a : Word) (f : Option LsqEntry) : ((s.loadAccess a f).2.2).icache = s.icache := (State.loadAccess_frame s a f).2.2.2.2.2.2.2.2.2.2.2.2.2.2.2.2.2.2.2.2.2.1
@[simp] theorem State.loadAccess_driver (s : State) (a : Word) (f : Option LsqEntry) : ((s.loadAccess a f).2.2).driver = s.driver := (State.loadAccess_frame s a f).2.2.2.2.2.2.2.2.2.2.2.2.2.2.2.2.2.2.2.2.2.2

/-- The fields `State.startLoad` leaves alone. -/
theorem State.startLoad_frame (s : State) :
    (s.startLoad).cfg = s.cfg ∧
    (s.startLoad).imem = s.imem ∧
    (s.startLoad).rf = s.rf ∧
    (s.startLoad).archPc = s.archPc ∧
    (s.startLoad).mem = s.mem ∧
    (s.startLoad).rob = s.rob ∧
    (s.startLoad).robHead = s.robHead ∧
    (s.startLoad).robTail = s.robTail ∧
    (s.startLoad).robCount = s.robCount ∧
    (s.startLoad).rs = s.rs ∧
    (s.startLoad).fu = s.fu ∧
    (s.startLoad).cdbq = s.cdbq ∧
    (s.startLoad).fb = s.fb ∧
    (s.startLoad).dl = s.dl ∧
    (s.startLoad).seqNext = s.seqNext ∧
    (s.startLoad).cycle = s.cycle ∧
    (s.startLoad).outcome = s.outcome ∧
    (s.startLoad).fetch = s.fetch ∧
    (s.startLoad).pred = s.pred ∧
    (s.startLoad).icache = s.icache ∧
    (s.startLoad).driver = s.driver := by
  unfold State.startLoad
  split
  · simp
  · split
    · simp
    · split
      rename_i h
      have h' := congrArg (fun x => x.2.2) h
      dsimp only at h'
      subst h'
      simp

@[simp] theorem State.startLoad_cfg (s : State) : (s.startLoad).cfg = s.cfg := (State.startLoad_frame s).1
@[simp] theorem State.startLoad_imem (s : State) : (s.startLoad).imem = s.imem := (State.startLoad_frame s).2.1
@[simp] theorem State.startLoad_rf (s : State) : (s.startLoad).rf = s.rf := (State.startLoad_frame s).2.2.1
@[simp] theorem State.startLoad_archPc (s : State) : (s.startLoad).archPc = s.archPc := (State.startLoad_frame s).2.2.2.1
@[simp] theorem State.startLoad_mem (s : State) : (s.startLoad).mem = s.mem := (State.startLoad_frame s).2.2.2.2.1
@[simp] theorem State.startLoad_rob (s : State) : (s.startLoad).rob = s.rob := (State.startLoad_frame s).2.2.2.2.2.1
@[simp] theorem State.startLoad_robHead (s : State) : (s.startLoad).robHead = s.robHead := (State.startLoad_frame s).2.2.2.2.2.2.1
@[simp] theorem State.startLoad_robTail (s : State) : (s.startLoad).robTail = s.robTail := (State.startLoad_frame s).2.2.2.2.2.2.2.1
@[simp] theorem State.startLoad_robCount (s : State) : (s.startLoad).robCount = s.robCount := (State.startLoad_frame s).2.2.2.2.2.2.2.2.1
@[simp] theorem State.startLoad_rs (s : State) : (s.startLoad).rs = s.rs := (State.startLoad_frame s).2.2.2.2.2.2.2.2.2.1
@[simp] theorem State.startLoad_fu (s : State) : (s.startLoad).fu = s.fu := (State.startLoad_frame s).2.2.2.2.2.2.2.2.2.2.1
@[simp] theorem State.startLoad_cdbq (s : State) : (s.startLoad).cdbq = s.cdbq := (State.startLoad_frame s).2.2.2.2.2.2.2.2.2.2.2.1
@[simp] theorem State.startLoad_fb (s : State) : (s.startLoad).fb = s.fb := (State.startLoad_frame s).2.2.2.2.2.2.2.2.2.2.2.2.1
@[simp] theorem State.startLoad_dl (s : State) : (s.startLoad).dl = s.dl := (State.startLoad_frame s).2.2.2.2.2.2.2.2.2.2.2.2.2.1
@[simp] theorem State.startLoad_seqNext (s : State) : (s.startLoad).seqNext = s.seqNext := (State.startLoad_frame s).2.2.2.2.2.2.2.2.2.2.2.2.2.2.1
@[simp] theorem State.startLoad_cycle (s : State) : (s.startLoad).cycle = s.cycle := (State.startLoad_frame s).2.2.2.2.2.2.2.2.2.2.2.2.2.2.2.1
@[simp] theorem State.startLoad_outcome (s : State) : (s.startLoad).outcome = s.outcome := (State.startLoad_frame s).2.2.2.2.2.2.2.2.2.2.2.2.2.2.2.2.1
@[simp] theorem State.startLoad_fetch (s : State) : (s.startLoad).fetch = s.fetch := (State.startLoad_frame s).2.2.2.2.2.2.2.2.2.2.2.2.2.2.2.2.2.1
@[simp] theorem State.startLoad_pred (s : State) : (s.startLoad).pred = s.pred := (State.startLoad_frame s).2.2.2.2.2.2.2.2.2.2.2.2.2.2.2.2.2.2.1
@[simp] theorem State.startLoad_icache (s : State) : (s.startLoad).icache = s.icache := (State.startLoad_frame s).2.2.2.2.2.2.2.2.2.2.2.2.2.2.2.2.2.2.2.1
@[simp] theorem State.startLoad_driver (s : State) : (s.startLoad).driver = s.driver := (State.startLoad_frame s).2.2.2.2.2.2.2.2.2.2.2.2.2.2.2.2.2.2.2.2

/-- The fields `State.memoryStage` leaves alone. -/
theorem State.memoryStage_frame (s : State) :
    (s.memoryStage).cfg = s.cfg ∧
    (s.memoryStage).imem = s.imem ∧
    (s.memoryStage).rf = s.rf ∧
    (s.memoryStage).archPc = s.archPc ∧
    (s.memoryStage).mem = s.mem ∧
    (s.memoryStage).rob = s.rob ∧
    (s.memoryStage).robHead = s.robHead ∧
    (s.memoryStage).robTail = s.robTail ∧
    (s.memoryStage).robCount = s.robCount ∧
    (s.memoryStage).rs = s.rs ∧
    (s.memoryStage).fu = s.fu ∧
    (s.memoryStage).fb = s.fb ∧
    (s.memoryStage).dl = s.dl ∧
    (s.memoryStage).seqNext = s.seqNext ∧
    (s.memoryStage).cycle = s.cycle ∧
    (s.memoryStage).outcome = s.outcome ∧
    (s.memoryStage).fetch = s.fetch ∧
    (s.memoryStage).pred = s.pred ∧
    (s.memoryStage).icache = s.icache ∧
    (s.memoryStage).driver = s.driver := by
  simp [State.memoryStage]

@[simp] theorem State.memoryStage_cfg (s : State) : (s.memoryStage).cfg = s.cfg := (State.memoryStage_frame s).1
@[simp] theorem State.memoryStage_imem (s : State) : (s.memoryStage).imem = s.imem := (State.memoryStage_frame s).2.1
@[simp] theorem State.memoryStage_rf (s : State) : (s.memoryStage).rf = s.rf := (State.memoryStage_frame s).2.2.1
@[simp] theorem State.memoryStage_archPc (s : State) : (s.memoryStage).archPc = s.archPc := (State.memoryStage_frame s).2.2.2.1
@[simp] theorem State.memoryStage_mem (s : State) : (s.memoryStage).mem = s.mem := (State.memoryStage_frame s).2.2.2.2.1
@[simp] theorem State.memoryStage_rob (s : State) : (s.memoryStage).rob = s.rob := (State.memoryStage_frame s).2.2.2.2.2.1
@[simp] theorem State.memoryStage_robHead (s : State) : (s.memoryStage).robHead = s.robHead := (State.memoryStage_frame s).2.2.2.2.2.2.1
@[simp] theorem State.memoryStage_robTail (s : State) : (s.memoryStage).robTail = s.robTail := (State.memoryStage_frame s).2.2.2.2.2.2.2.1
@[simp] theorem State.memoryStage_robCount (s : State) : (s.memoryStage).robCount = s.robCount := (State.memoryStage_frame s).2.2.2.2.2.2.2.2.1
@[simp] theorem State.memoryStage_rs (s : State) : (s.memoryStage).rs = s.rs := (State.memoryStage_frame s).2.2.2.2.2.2.2.2.2.1
@[simp] theorem State.memoryStage_fu (s : State) : (s.memoryStage).fu = s.fu := (State.memoryStage_frame s).2.2.2.2.2.2.2.2.2.2.1
@[simp] theorem State.memoryStage_fb (s : State) : (s.memoryStage).fb = s.fb := (State.memoryStage_frame s).2.2.2.2.2.2.2.2.2.2.2.1
@[simp] theorem State.memoryStage_dl (s : State) : (s.memoryStage).dl = s.dl := (State.memoryStage_frame s).2.2.2.2.2.2.2.2.2.2.2.2.1
@[simp] theorem State.memoryStage_seqNext (s : State) : (s.memoryStage).seqNext = s.seqNext := (State.memoryStage_frame s).2.2.2.2.2.2.2.2.2.2.2.2.2.1
@[simp] theorem State.memoryStage_cycle (s : State) : (s.memoryStage).cycle = s.cycle := (State.memoryStage_frame s).2.2.2.2.2.2.2.2.2.2.2.2.2.2.1
@[simp] theorem State.memoryStage_outcome (s : State) : (s.memoryStage).outcome = s.outcome := (State.memoryStage_frame s).2.2.2.2.2.2.2.2.2.2.2.2.2.2.2.1
@[simp] theorem State.memoryStage_fetch (s : State) : (s.memoryStage).fetch = s.fetch := (State.memoryStage_frame s).2.2.2.2.2.2.2.2.2.2.2.2.2.2.2.2.1
@[simp] theorem State.memoryStage_pred (s : State) : (s.memoryStage).pred = s.pred := (State.memoryStage_frame s).2.2.2.2.2.2.2.2.2.2.2.2.2.2.2.2.2.1
@[simp] theorem State.memoryStage_icache (s : State) : (s.memoryStage).icache = s.icache := (State.memoryStage_frame s).2.2.2.2.2.2.2.2.2.2.2.2.2.2.2.2.2.2.1
@[simp] theorem State.memoryStage_driver (s : State) : (s.memoryStage).driver = s.driver := (State.memoryStage_frame s).2.2.2.2.2.2.2.2.2.2.2.2.2.2.2.2.2.2.2

/-- The fields `State.dispatchClass` leaves alone. -/
theorem State.dispatchClass_frame (s : State) (k : FuClass) :
    ((s.dispatchClass k).1).cfg = s.cfg ∧
    ((s.dispatchClass k).1).imem = s.imem ∧
    ((s.dispatchClass k).1).rf = s.rf ∧
    ((s.dispatchClass k).1).archPc = s.archPc ∧
    ((s.dispatchClass k).1).mem = s.mem ∧
    ((s.dispatchClass k).1).rob = s.rob ∧
    ((s.dispatchClass k).1).robHead = s.robHead ∧
    ((s.dispatchClass k).1).robTail = s.robTail ∧
    ((s.dispatchClass k).1).robCount = s.robCount ∧
    ((s.dispatchClass k).1).cdbq = s.cdbq ∧
    ((s.dispatchClass k).1).lsq = s.lsq ∧
    ((s.dispatchClass k).1).mport = s.mport ∧
    ((s.dispatchClass k).1).fb = s.fb ∧
    ((s.dispatchClass k).1).dl = s.dl ∧
    ((s.dispatchClass k).1).seqNext = s.seqNext ∧
    ((s.dispatchClass k).1).cycle = s.cycle ∧
    ((s.dispatchClass k).1).outcome = s.outcome ∧
    ((s.dispatchClass k).1).metrics = s.metrics ∧
    ((s.dispatchClass k).1).fetch = s.fetch ∧
    ((s.dispatchClass k).1).pred = s.pred ∧
    ((s.dispatchClass k).1).icache = s.icache ∧
    ((s.dispatchClass k).1).dcache = s.dcache ∧
    ((s.dispatchClass k).1).driver = s.driver := by
  simp [State.dispatchClass]

@[simp] theorem State.dispatchClass_cfg (s : State) (k : FuClass) : ((s.dispatchClass k).1).cfg = s.cfg := (State.dispatchClass_frame s k).1
@[simp] theorem State.dispatchClass_imem (s : State) (k : FuClass) : ((s.dispatchClass k).1).imem = s.imem := (State.dispatchClass_frame s k).2.1
@[simp] theorem State.dispatchClass_rf (s : State) (k : FuClass) : ((s.dispatchClass k).1).rf = s.rf := (State.dispatchClass_frame s k).2.2.1
@[simp] theorem State.dispatchClass_archPc (s : State) (k : FuClass) : ((s.dispatchClass k).1).archPc = s.archPc := (State.dispatchClass_frame s k).2.2.2.1
@[simp] theorem State.dispatchClass_mem (s : State) (k : FuClass) : ((s.dispatchClass k).1).mem = s.mem := (State.dispatchClass_frame s k).2.2.2.2.1
@[simp] theorem State.dispatchClass_rob (s : State) (k : FuClass) : ((s.dispatchClass k).1).rob = s.rob := (State.dispatchClass_frame s k).2.2.2.2.2.1
@[simp] theorem State.dispatchClass_robHead (s : State) (k : FuClass) : ((s.dispatchClass k).1).robHead = s.robHead := (State.dispatchClass_frame s k).2.2.2.2.2.2.1
@[simp] theorem State.dispatchClass_robTail (s : State) (k : FuClass) : ((s.dispatchClass k).1).robTail = s.robTail := (State.dispatchClass_frame s k).2.2.2.2.2.2.2.1
@[simp] theorem State.dispatchClass_robCount (s : State) (k : FuClass) : ((s.dispatchClass k).1).robCount = s.robCount := (State.dispatchClass_frame s k).2.2.2.2.2.2.2.2.1
@[simp] theorem State.dispatchClass_cdbq (s : State) (k : FuClass) : ((s.dispatchClass k).1).cdbq = s.cdbq := (State.dispatchClass_frame s k).2.2.2.2.2.2.2.2.2.1
@[simp] theorem State.dispatchClass_lsq (s : State) (k : FuClass) : ((s.dispatchClass k).1).lsq = s.lsq := (State.dispatchClass_frame s k).2.2.2.2.2.2.2.2.2.2.1
@[simp] theorem State.dispatchClass_mport (s : State) (k : FuClass) : ((s.dispatchClass k).1).mport = s.mport := (State.dispatchClass_frame s k).2.2.2.2.2.2.2.2.2.2.2.1
@[simp] theorem State.dispatchClass_fb (s : State) (k : FuClass) : ((s.dispatchClass k).1).fb = s.fb := (State.dispatchClass_frame s k).2.2.2.2.2.2.2.2.2.2.2.2.1
@[simp] theorem State.dispatchClass_dl (s : State) (k : FuClass) : ((s.dispatchClass k).1).dl = s.dl := (State.dispatchClass_frame s k).2.2.2.2.2.2.2.2.2.2.2.2.2.1
@[simp] theorem State.dispatchClass_seqNext (s : State) (k : FuClass) : ((s.dispatchClass k).1).seqNext = s.seqNext := (State.dispatchClass_frame s k).2.2.2.2.2.2.2.2.2.2.2.2.2.2.1
@[simp] theorem State.dispatchClass_cycle (s : State) (k : FuClass) : ((s.dispatchClass k).1).cycle = s.cycle := (State.dispatchClass_frame s k).2.2.2.2.2.2.2.2.2.2.2.2.2.2.2.1
@[simp] theorem State.dispatchClass_outcome (s : State) (k : FuClass) : ((s.dispatchClass k).1).outcome = s.outcome := (State.dispatchClass_frame s k).2.2.2.2.2.2.2.2.2.2.2.2.2.2.2.2.1
@[simp] theorem State.dispatchClass_metrics (s : State) (k : FuClass) : ((s.dispatchClass k).1).metrics = s.metrics := (State.dispatchClass_frame s k).2.2.2.2.2.2.2.2.2.2.2.2.2.2.2.2.2.1
@[simp] theorem State.dispatchClass_fetch (s : State) (k : FuClass) : ((s.dispatchClass k).1).fetch = s.fetch := (State.dispatchClass_frame s k).2.2.2.2.2.2.2.2.2.2.2.2.2.2.2.2.2.2.1
@[simp] theorem State.dispatchClass_pred (s : State) (k : FuClass) : ((s.dispatchClass k).1).pred = s.pred := (State.dispatchClass_frame s k).2.2.2.2.2.2.2.2.2.2.2.2.2.2.2.2.2.2.2.1
@[simp] theorem State.dispatchClass_icache (s : State) (k : FuClass) : ((s.dispatchClass k).1).icache = s.icache := (State.dispatchClass_frame s k).2.2.2.2.2.2.2.2.2.2.2.2.2.2.2.2.2.2.2.2.1
@[simp] theorem State.dispatchClass_dcache (s : State) (k : FuClass) : ((s.dispatchClass k).1).dcache = s.dcache := (State.dispatchClass_frame s k).2.2.2.2.2.2.2.2.2.2.2.2.2.2.2.2.2.2.2.2.2.1
@[simp] theorem State.dispatchClass_driver (s : State) (k : FuClass) : ((s.dispatchClass k).1).driver = s.driver := (State.dispatchClass_frame s k).2.2.2.2.2.2.2.2.2.2.2.2.2.2.2.2.2.2.2.2.2.2

/-- The fields `State.selectStage` leaves alone. -/
theorem State.selectStage_frame (s : State) :
    (s.selectStage).cfg = s.cfg ∧
    (s.selectStage).imem = s.imem ∧
    (s.selectStage).rf = s.rf ∧
    (s.selectStage).archPc = s.archPc ∧
    (s.selectStage).mem = s.mem ∧
    (s.selectStage).rob = s.rob ∧
    (s.selectStage).robHead = s.robHead ∧
    (s.selectStage).robTail = s.robTail ∧
    (s.selectStage).robCount = s.robCount ∧
    (s.selectStage).cdbq = s.cdbq ∧
    (s.selectStage).lsq = s.lsq ∧
    (s.selectStage).mport = s.mport ∧
    (s.selectStage).fb = s.fb ∧
    (s.selectStage).dl = s.dl ∧
    (s.selectStage).seqNext = s.seqNext ∧
    (s.selectStage).cycle = s.cycle ∧
    (s.selectStage).outcome = s.outcome ∧
    (s.selectStage).fetch = s.fetch ∧
    (s.selectStage).pred = s.pred ∧
    (s.selectStage).icache = s.icache ∧
    (s.selectStage).dcache = s.dcache ∧
    (s.selectStage).driver = s.driver := by
  simp [State.selectStage]

@[simp] theorem State.selectStage_cfg (s : State) : (s.selectStage).cfg = s.cfg := (State.selectStage_frame s).1
@[simp] theorem State.selectStage_imem (s : State) : (s.selectStage).imem = s.imem := (State.selectStage_frame s).2.1
@[simp] theorem State.selectStage_rf (s : State) : (s.selectStage).rf = s.rf := (State.selectStage_frame s).2.2.1
@[simp] theorem State.selectStage_archPc (s : State) : (s.selectStage).archPc = s.archPc := (State.selectStage_frame s).2.2.2.1
@[simp] theorem State.selectStage_mem (s : State) : (s.selectStage).mem = s.mem := (State.selectStage_frame s).2.2.2.2.1
@[simp] theorem State.selectStage_rob (s : State) : (s.selectStage).rob = s.rob := (State.selectStage_frame s).2.2.2.2.2.1
@[simp] theorem State.selectStage_robHead (s : State) : (s.selectStage).robHead = s.robHead := (State.selectStage_frame s).2.2.2.2.2.2.1
@[simp] theorem State.selectStage_robTail (s : State) : (s.selectStage).robTail = s.robTail := (State.selectStage_frame s).2.2.2.2.2.2.2.1
@[simp] theorem State.selectStage_robCount (s : State) : (s.selectStage).robCount = s.robCount := (State.selectStage_frame s).2.2.2.2.2.2.2.2.1
@[simp] theorem State.selectStage_cdbq (s : State) : (s.selectStage).cdbq = s.cdbq := (State.selectStage_frame s).2.2.2.2.2.2.2.2.2.1
@[simp] theorem State.selectStage_lsq (s : State) : (s.selectStage).lsq = s.lsq := (State.selectStage_frame s).2.2.2.2.2.2.2.2.2.2.1
@[simp] theorem State.selectStage_mport (s : State) : (s.selectStage).mport = s.mport := (State.selectStage_frame s).2.2.2.2.2.2.2.2.2.2.2.1
@[simp] theorem State.selectStage_fb (s : State) : (s.selectStage).fb = s.fb := (State.selectStage_frame s).2.2.2.2.2.2.2.2.2.2.2.2.1
@[simp] theorem State.selectStage_dl (s : State) : (s.selectStage).dl = s.dl := (State.selectStage_frame s).2.2.2.2.2.2.2.2.2.2.2.2.2.1
@[simp] theorem State.selectStage_seqNext (s : State) : (s.selectStage).seqNext = s.seqNext := (State.selectStage_frame s).2.2.2.2.2.2.2.2.2.2.2.2.2.2.1
@[simp] theorem State.selectStage_cycle (s : State) : (s.selectStage).cycle = s.cycle := (State.selectStage_frame s).2.2.2.2.2.2.2.2.2.2.2.2.2.2.2.1
@[simp] theorem State.selectStage_outcome (s : State) : (s.selectStage).outcome = s.outcome := (State.selectStage_frame s).2.2.2.2.2.2.2.2.2.2.2.2.2.2.2.2.1
@[simp] theorem State.selectStage_fetch (s : State) : (s.selectStage).fetch = s.fetch := (State.selectStage_frame s).2.2.2.2.2.2.2.2.2.2.2.2.2.2.2.2.2.1
@[simp] theorem State.selectStage_pred (s : State) : (s.selectStage).pred = s.pred := (State.selectStage_frame s).2.2.2.2.2.2.2.2.2.2.2.2.2.2.2.2.2.2.1
@[simp] theorem State.selectStage_icache (s : State) : (s.selectStage).icache = s.icache := (State.selectStage_frame s).2.2.2.2.2.2.2.2.2.2.2.2.2.2.2.2.2.2.2.1
@[simp] theorem State.selectStage_dcache (s : State) : (s.selectStage).dcache = s.dcache := (State.selectStage_frame s).2.2.2.2.2.2.2.2.2.2.2.2.2.2.2.2.2.2.2.2.1
@[simp] theorem State.selectStage_driver (s : State) : (s.selectStage).driver = s.driver := (State.selectStage_frame s).2.2.2.2.2.2.2.2.2.2.2.2.2.2.2.2.2.2.2.2.2

/-- The fields `State.finishUnit` leaves alone. -/
theorem State.finishUnit_frame (s : State) (k : FuClass) (u : FuUnit) :
    (s.finishUnit k u).cfg = s.cfg ∧
    (s.finishUnit k u).imem = s.imem ∧
    (s.finishUnit k u).rf = s.rf ∧
    (s.finishUnit k u).archPc = s.archPc ∧
    (s.finishUnit k u).mem = s.mem ∧
    (s.finishUnit k u).robHead = s.robHead ∧
    (s.finishUnit k u).robTail = s.robTail ∧
    (s.finishUnit k u).robCount = s.robCount ∧
    (s.finishUnit k u).rs = s.rs ∧
    (s.finishUnit k u).fu = s.fu ∧
    (s.finishUnit k u).mport = s.mport ∧
    (s.finishUnit k u).fb = s.fb ∧
    (s.finishUnit k u).dl = s.dl ∧
    (s.finishUnit k u).seqNext = s.seqNext ∧
    (s.finishUnit k u).cycle = s.cycle ∧
    (s.finishUnit k u).outcome = s.outcome ∧
    (s.finishUnit k u).metrics = s.metrics ∧
    (s.finishUnit k u).fetch = s.fetch ∧
    (s.finishUnit k u).pred = s.pred ∧
    (s.finishUnit k u).icache = s.icache ∧
    (s.finishUnit k u).dcache = s.dcache ∧
    (s.finishUnit k u).driver = s.driver := by
  cases k <;> simp [State.finishUnit]

@[simp] theorem State.finishUnit_cfg (s : State) (k : FuClass) (u : FuUnit) : (s.finishUnit k u).cfg = s.cfg := (State.finishUnit_frame s k u).1
@[simp] theorem State.finishUnit_imem (s : State) (k : FuClass) (u : FuUnit) : (s.finishUnit k u).imem = s.imem := (State.finishUnit_frame s k u).2.1
@[simp] theorem State.finishUnit_rf (s : State) (k : FuClass) (u : FuUnit) : (s.finishUnit k u).rf = s.rf := (State.finishUnit_frame s k u).2.2.1
@[simp] theorem State.finishUnit_archPc (s : State) (k : FuClass) (u : FuUnit) : (s.finishUnit k u).archPc = s.archPc := (State.finishUnit_frame s k u).2.2.2.1
@[simp] theorem State.finishUnit_mem (s : State) (k : FuClass) (u : FuUnit) : (s.finishUnit k u).mem = s.mem := (State.finishUnit_frame s k u).2.2.2.2.1
@[simp] theorem State.finishUnit_robHead (s : State) (k : FuClass) (u : FuUnit) : (s.finishUnit k u).robHead = s.robHead := (State.finishUnit_frame s k u).2.2.2.2.2.1
@[simp] theorem State.finishUnit_robTail (s : State) (k : FuClass) (u : FuUnit) : (s.finishUnit k u).robTail = s.robTail := (State.finishUnit_frame s k u).2.2.2.2.2.2.1
@[simp] theorem State.finishUnit_robCount (s : State) (k : FuClass) (u : FuUnit) : (s.finishUnit k u).robCount = s.robCount := (State.finishUnit_frame s k u).2.2.2.2.2.2.2.1
@[simp] theorem State.finishUnit_rs (s : State) (k : FuClass) (u : FuUnit) : (s.finishUnit k u).rs = s.rs := (State.finishUnit_frame s k u).2.2.2.2.2.2.2.2.1
@[simp] theorem State.finishUnit_fu (s : State) (k : FuClass) (u : FuUnit) : (s.finishUnit k u).fu = s.fu := (State.finishUnit_frame s k u).2.2.2.2.2.2.2.2.2.1
@[simp] theorem State.finishUnit_mport (s : State) (k : FuClass) (u : FuUnit) : (s.finishUnit k u).mport = s.mport := (State.finishUnit_frame s k u).2.2.2.2.2.2.2.2.2.2.1
@[simp] theorem State.finishUnit_fb (s : State) (k : FuClass) (u : FuUnit) : (s.finishUnit k u).fb = s.fb := (State.finishUnit_frame s k u).2.2.2.2.2.2.2.2.2.2.2.1
@[simp] theorem State.finishUnit_dl (s : State) (k : FuClass) (u : FuUnit) : (s.finishUnit k u).dl = s.dl := (State.finishUnit_frame s k u).2.2.2.2.2.2.2.2.2.2.2.2.1
@[simp] theorem State.finishUnit_seqNext (s : State) (k : FuClass) (u : FuUnit) : (s.finishUnit k u).seqNext = s.seqNext := (State.finishUnit_frame s k u).2.2.2.2.2.2.2.2.2.2.2.2.2.1
@[simp] theorem State.finishUnit_cycle (s : State) (k : FuClass) (u : FuUnit) : (s.finishUnit k u).cycle = s.cycle := (State.finishUnit_frame s k u).2.2.2.2.2.2.2.2.2.2.2.2.2.2.1
@[simp] theorem State.finishUnit_outcome (s : State) (k : FuClass) (u : FuUnit) : (s.finishUnit k u).outcome = s.outcome := (State.finishUnit_frame s k u).2.2.2.2.2.2.2.2.2.2.2.2.2.2.2.1
@[simp] theorem State.finishUnit_metrics (s : State) (k : FuClass) (u : FuUnit) : (s.finishUnit k u).metrics = s.metrics := (State.finishUnit_frame s k u).2.2.2.2.2.2.2.2.2.2.2.2.2.2.2.2.1
@[simp] theorem State.finishUnit_fetch (s : State) (k : FuClass) (u : FuUnit) : (s.finishUnit k u).fetch = s.fetch := (State.finishUnit_frame s k u).2.2.2.2.2.2.2.2.2.2.2.2.2.2.2.2.2.1
@[simp] theorem State.finishUnit_pred (s : State) (k : FuClass) (u : FuUnit) : (s.finishUnit k u).pred = s.pred := (State.finishUnit_frame s k u).2.2.2.2.2.2.2.2.2.2.2.2.2.2.2.2.2.2.1
@[simp] theorem State.finishUnit_icache (s : State) (k : FuClass) (u : FuUnit) : (s.finishUnit k u).icache = s.icache := (State.finishUnit_frame s k u).2.2.2.2.2.2.2.2.2.2.2.2.2.2.2.2.2.2.2.1
@[simp] theorem State.finishUnit_dcache (s : State) (k : FuClass) (u : FuUnit) : (s.finishUnit k u).dcache = s.dcache := (State.finishUnit_frame s k u).2.2.2.2.2.2.2.2.2.2.2.2.2.2.2.2.2.2.2.2.1
@[simp] theorem State.finishUnit_driver (s : State) (k : FuClass) (u : FuUnit) : (s.finishUnit k u).driver = s.driver := (State.finishUnit_frame s k u).2.2.2.2.2.2.2.2.2.2.2.2.2.2.2.2.2.2.2.2.2

/-- The fields `State.advanceUnit` leaves alone. -/
theorem State.advanceUnit_frame (s : State) (k : FuClass) (j : Nat) :
    (s.advanceUnit k j).cfg = s.cfg ∧
    (s.advanceUnit k j).imem = s.imem ∧
    (s.advanceUnit k j).rf = s.rf ∧
    (s.advanceUnit k j).archPc = s.archPc ∧
    (s.advanceUnit k j).mem = s.mem ∧
    (s.advanceUnit k j).robHead = s.robHead ∧
    (s.advanceUnit k j).robTail = s.robTail ∧
    (s.advanceUnit k j).robCount = s.robCount ∧
    (s.advanceUnit k j).rs = s.rs ∧
    (s.advanceUnit k j).mport = s.mport ∧
    (s.advanceUnit k j).fb = s.fb ∧
    (s.advanceUnit k j).dl = s.dl ∧
    (s.advanceUnit k j).seqNext = s.seqNext ∧
    (s.advanceUnit k j).cycle = s.cycle ∧
    (s.advanceUnit k j).outcome = s.outcome ∧
    (s.advanceUnit k j).fetch = s.fetch ∧
    (s.advanceUnit k j).pred = s.pred ∧
    (s.advanceUnit k j).icache = s.icache ∧
    (s.advanceUnit k j).dcache = s.dcache ∧
    (s.advanceUnit k j).driver = s.driver := by
  unfold State.advanceUnit
  split
  · dsimp only; split <;> simp
  · simp

@[simp] theorem State.advanceUnit_cfg (s : State) (k : FuClass) (j : Nat) : (s.advanceUnit k j).cfg = s.cfg := (State.advanceUnit_frame s k j).1
@[simp] theorem State.advanceUnit_imem (s : State) (k : FuClass) (j : Nat) : (s.advanceUnit k j).imem = s.imem := (State.advanceUnit_frame s k j).2.1
@[simp] theorem State.advanceUnit_rf (s : State) (k : FuClass) (j : Nat) : (s.advanceUnit k j).rf = s.rf := (State.advanceUnit_frame s k j).2.2.1
@[simp] theorem State.advanceUnit_archPc (s : State) (k : FuClass) (j : Nat) : (s.advanceUnit k j).archPc = s.archPc := (State.advanceUnit_frame s k j).2.2.2.1
@[simp] theorem State.advanceUnit_mem (s : State) (k : FuClass) (j : Nat) : (s.advanceUnit k j).mem = s.mem := (State.advanceUnit_frame s k j).2.2.2.2.1
@[simp] theorem State.advanceUnit_robHead (s : State) (k : FuClass) (j : Nat) : (s.advanceUnit k j).robHead = s.robHead := (State.advanceUnit_frame s k j).2.2.2.2.2.1
@[simp] theorem State.advanceUnit_robTail (s : State) (k : FuClass) (j : Nat) : (s.advanceUnit k j).robTail = s.robTail := (State.advanceUnit_frame s k j).2.2.2.2.2.2.1
@[simp] theorem State.advanceUnit_robCount (s : State) (k : FuClass) (j : Nat) : (s.advanceUnit k j).robCount = s.robCount := (State.advanceUnit_frame s k j).2.2.2.2.2.2.2.1
@[simp] theorem State.advanceUnit_rs (s : State) (k : FuClass) (j : Nat) : (s.advanceUnit k j).rs = s.rs := (State.advanceUnit_frame s k j).2.2.2.2.2.2.2.2.1
@[simp] theorem State.advanceUnit_mport (s : State) (k : FuClass) (j : Nat) : (s.advanceUnit k j).mport = s.mport := (State.advanceUnit_frame s k j).2.2.2.2.2.2.2.2.2.1
@[simp] theorem State.advanceUnit_fb (s : State) (k : FuClass) (j : Nat) : (s.advanceUnit k j).fb = s.fb := (State.advanceUnit_frame s k j).2.2.2.2.2.2.2.2.2.2.1
@[simp] theorem State.advanceUnit_dl (s : State) (k : FuClass) (j : Nat) : (s.advanceUnit k j).dl = s.dl := (State.advanceUnit_frame s k j).2.2.2.2.2.2.2.2.2.2.2.1
@[simp] theorem State.advanceUnit_seqNext (s : State) (k : FuClass) (j : Nat) : (s.advanceUnit k j).seqNext = s.seqNext := (State.advanceUnit_frame s k j).2.2.2.2.2.2.2.2.2.2.2.2.1
@[simp] theorem State.advanceUnit_cycle (s : State) (k : FuClass) (j : Nat) : (s.advanceUnit k j).cycle = s.cycle := (State.advanceUnit_frame s k j).2.2.2.2.2.2.2.2.2.2.2.2.2.1
@[simp] theorem State.advanceUnit_outcome (s : State) (k : FuClass) (j : Nat) : (s.advanceUnit k j).outcome = s.outcome := (State.advanceUnit_frame s k j).2.2.2.2.2.2.2.2.2.2.2.2.2.2.1
@[simp] theorem State.advanceUnit_fetch (s : State) (k : FuClass) (j : Nat) : (s.advanceUnit k j).fetch = s.fetch := (State.advanceUnit_frame s k j).2.2.2.2.2.2.2.2.2.2.2.2.2.2.2.1
@[simp] theorem State.advanceUnit_pred (s : State) (k : FuClass) (j : Nat) : (s.advanceUnit k j).pred = s.pred := (State.advanceUnit_frame s k j).2.2.2.2.2.2.2.2.2.2.2.2.2.2.2.2.1
@[simp] theorem State.advanceUnit_icache (s : State) (k : FuClass) (j : Nat) : (s.advanceUnit k j).icache = s.icache := (State.advanceUnit_frame s k j).2.2.2.2.2.2.2.2.2.2.2.2.2.2.2.2.2.1
@[simp] theorem State.advanceUnit_dcache (s : State) (k : FuClass) (j : Nat) : (s.advanceUnit k j).dcache = s.dcache := (State.advanceUnit_frame s k j).2.2.2.2.2.2.2.2.2.2.2.2.2.2.2.2.2.2.1
@[simp] theorem State.advanceUnit_driver (s : State) (k : FuClass) (j : Nat) : (s.advanceUnit k j).driver = s.driver := (State.advanceUnit_frame s k j).2.2.2.2.2.2.2.2.2.2.2.2.2.2.2.2.2.2.2

/-- The fields `advanceFrom` leaves alone. -/
theorem advanceFrom_frame (k : FuClass) (n j : Nat) (s : State) :
    (advanceFrom k n j s).cfg = s.cfg ∧
    (advanceFrom k n j s).imem = s.imem ∧
    (advanceFrom k n j s).rf = s.rf ∧
    (advanceFrom k n j s).archPc = s.archPc ∧
    (advanceFrom k n j s).mem = s.mem ∧
    (advanceFrom k n j s).robHead = s.robHead ∧
    (advanceFrom k n j s).robTail = s.robTail ∧
    (advanceFrom k n j s).robCount = s.robCount ∧
    (advanceFrom k n j s).rs = s.rs ∧
    (advanceFrom k n j s).mport = s.mport ∧
    (advanceFrom k n j s).fb = s.fb ∧
    (advanceFrom k n j s).dl = s.dl ∧
    (advanceFrom k n j s).seqNext = s.seqNext ∧
    (advanceFrom k n j s).cycle = s.cycle ∧
    (advanceFrom k n j s).outcome = s.outcome ∧
    (advanceFrom k n j s).fetch = s.fetch ∧
    (advanceFrom k n j s).pred = s.pred ∧
    (advanceFrom k n j s).icache = s.icache ∧
    (advanceFrom k n j s).dcache = s.dcache ∧
    (advanceFrom k n j s).driver = s.driver := by
  induction n generalizing j s with
  | zero => simp [advanceFrom]
  | succ n ih => simp [advanceFrom, ih]

@[simp] theorem advanceFrom_cfg (k : FuClass) (n j : Nat) (s : State) : (advanceFrom k n j s).cfg = s.cfg := (advanceFrom_frame k n j s).1
@[simp] theorem advanceFrom_imem (k : FuClass) (n j : Nat) (s : State) : (advanceFrom k n j s).imem = s.imem := (advanceFrom_frame k n j s).2.1
@[simp] theorem advanceFrom_rf (k : FuClass) (n j : Nat) (s : State) : (advanceFrom k n j s).rf = s.rf := (advanceFrom_frame k n j s).2.2.1
@[simp] theorem advanceFrom_archPc (k : FuClass) (n j : Nat) (s : State) : (advanceFrom k n j s).archPc = s.archPc := (advanceFrom_frame k n j s).2.2.2.1
@[simp] theorem advanceFrom_mem (k : FuClass) (n j : Nat) (s : State) : (advanceFrom k n j s).mem = s.mem := (advanceFrom_frame k n j s).2.2.2.2.1
@[simp] theorem advanceFrom_robHead (k : FuClass) (n j : Nat) (s : State) : (advanceFrom k n j s).robHead = s.robHead := (advanceFrom_frame k n j s).2.2.2.2.2.1
@[simp] theorem advanceFrom_robTail (k : FuClass) (n j : Nat) (s : State) : (advanceFrom k n j s).robTail = s.robTail := (advanceFrom_frame k n j s).2.2.2.2.2.2.1
@[simp] theorem advanceFrom_robCount (k : FuClass) (n j : Nat) (s : State) : (advanceFrom k n j s).robCount = s.robCount := (advanceFrom_frame k n j s).2.2.2.2.2.2.2.1
@[simp] theorem advanceFrom_rs (k : FuClass) (n j : Nat) (s : State) : (advanceFrom k n j s).rs = s.rs := (advanceFrom_frame k n j s).2.2.2.2.2.2.2.2.1
@[simp] theorem advanceFrom_mport (k : FuClass) (n j : Nat) (s : State) : (advanceFrom k n j s).mport = s.mport := (advanceFrom_frame k n j s).2.2.2.2.2.2.2.2.2.1
@[simp] theorem advanceFrom_fb (k : FuClass) (n j : Nat) (s : State) : (advanceFrom k n j s).fb = s.fb := (advanceFrom_frame k n j s).2.2.2.2.2.2.2.2.2.2.1
@[simp] theorem advanceFrom_dl (k : FuClass) (n j : Nat) (s : State) : (advanceFrom k n j s).dl = s.dl := (advanceFrom_frame k n j s).2.2.2.2.2.2.2.2.2.2.2.1
@[simp] theorem advanceFrom_seqNext (k : FuClass) (n j : Nat) (s : State) : (advanceFrom k n j s).seqNext = s.seqNext := (advanceFrom_frame k n j s).2.2.2.2.2.2.2.2.2.2.2.2.1
@[simp] theorem advanceFrom_cycle (k : FuClass) (n j : Nat) (s : State) : (advanceFrom k n j s).cycle = s.cycle := (advanceFrom_frame k n j s).2.2.2.2.2.2.2.2.2.2.2.2.2.1
@[simp] theorem advanceFrom_outcome (k : FuClass) (n j : Nat) (s : State) : (advanceFrom k n j s).outcome = s.outcome := (advanceFrom_frame k n j s).2.2.2.2.2.2.2.2.2.2.2.2.2.2.1
@[simp] theorem advanceFrom_fetch (k : FuClass) (n j : Nat) (s : State) : (advanceFrom k n j s).fetch = s.fetch := (advanceFrom_frame k n j s).2.2.2.2.2.2.2.2.2.2.2.2.2.2.2.1
@[simp] theorem advanceFrom_pred (k : FuClass) (n j : Nat) (s : State) : (advanceFrom k n j s).pred = s.pred := (advanceFrom_frame k n j s).2.2.2.2.2.2.2.2.2.2.2.2.2.2.2.2.1
@[simp] theorem advanceFrom_icache (k : FuClass) (n j : Nat) (s : State) : (advanceFrom k n j s).icache = s.icache := (advanceFrom_frame k n j s).2.2.2.2.2.2.2.2.2.2.2.2.2.2.2.2.2.1
@[simp] theorem advanceFrom_dcache (k : FuClass) (n j : Nat) (s : State) : (advanceFrom k n j s).dcache = s.dcache := (advanceFrom_frame k n j s).2.2.2.2.2.2.2.2.2.2.2.2.2.2.2.2.2.2.1
@[simp] theorem advanceFrom_driver (k : FuClass) (n j : Nat) (s : State) : (advanceFrom k n j s).driver = s.driver := (advanceFrom_frame k n j s).2.2.2.2.2.2.2.2.2.2.2.2.2.2.2.2.2.2.2

/-- The fields `State.advanceStage` leaves alone. -/
theorem State.advanceStage_frame (s : State) :
    (s.advanceStage).cfg = s.cfg ∧
    (s.advanceStage).imem = s.imem ∧
    (s.advanceStage).rf = s.rf ∧
    (s.advanceStage).archPc = s.archPc ∧
    (s.advanceStage).mem = s.mem ∧
    (s.advanceStage).robHead = s.robHead ∧
    (s.advanceStage).robTail = s.robTail ∧
    (s.advanceStage).robCount = s.robCount ∧
    (s.advanceStage).rs = s.rs ∧
    (s.advanceStage).mport = s.mport ∧
    (s.advanceStage).fb = s.fb ∧
    (s.advanceStage).dl = s.dl ∧
    (s.advanceStage).seqNext = s.seqNext ∧
    (s.advanceStage).cycle = s.cycle ∧
    (s.advanceStage).outcome = s.outcome ∧
    (s.advanceStage).fetch = s.fetch ∧
    (s.advanceStage).pred = s.pred ∧
    (s.advanceStage).icache = s.icache ∧
    (s.advanceStage).dcache = s.dcache ∧
    (s.advanceStage).driver = s.driver := by
  simp [State.advanceStage, State.advanceClass]

@[simp] theorem State.advanceStage_cfg (s : State) : (s.advanceStage).cfg = s.cfg := (State.advanceStage_frame s).1
@[simp] theorem State.advanceStage_imem (s : State) : (s.advanceStage).imem = s.imem := (State.advanceStage_frame s).2.1
@[simp] theorem State.advanceStage_rf (s : State) : (s.advanceStage).rf = s.rf := (State.advanceStage_frame s).2.2.1
@[simp] theorem State.advanceStage_archPc (s : State) : (s.advanceStage).archPc = s.archPc := (State.advanceStage_frame s).2.2.2.1
@[simp] theorem State.advanceStage_mem (s : State) : (s.advanceStage).mem = s.mem := (State.advanceStage_frame s).2.2.2.2.1
@[simp] theorem State.advanceStage_robHead (s : State) : (s.advanceStage).robHead = s.robHead := (State.advanceStage_frame s).2.2.2.2.2.1
@[simp] theorem State.advanceStage_robTail (s : State) : (s.advanceStage).robTail = s.robTail := (State.advanceStage_frame s).2.2.2.2.2.2.1
@[simp] theorem State.advanceStage_robCount (s : State) : (s.advanceStage).robCount = s.robCount := (State.advanceStage_frame s).2.2.2.2.2.2.2.1
@[simp] theorem State.advanceStage_rs (s : State) : (s.advanceStage).rs = s.rs := (State.advanceStage_frame s).2.2.2.2.2.2.2.2.1
@[simp] theorem State.advanceStage_mport (s : State) : (s.advanceStage).mport = s.mport := (State.advanceStage_frame s).2.2.2.2.2.2.2.2.2.1
@[simp] theorem State.advanceStage_fb (s : State) : (s.advanceStage).fb = s.fb := (State.advanceStage_frame s).2.2.2.2.2.2.2.2.2.2.1
@[simp] theorem State.advanceStage_dl (s : State) : (s.advanceStage).dl = s.dl := (State.advanceStage_frame s).2.2.2.2.2.2.2.2.2.2.2.1
@[simp] theorem State.advanceStage_seqNext (s : State) : (s.advanceStage).seqNext = s.seqNext := (State.advanceStage_frame s).2.2.2.2.2.2.2.2.2.2.2.2.1
@[simp] theorem State.advanceStage_cycle (s : State) : (s.advanceStage).cycle = s.cycle := (State.advanceStage_frame s).2.2.2.2.2.2.2.2.2.2.2.2.2.1
@[simp] theorem State.advanceStage_outcome (s : State) : (s.advanceStage).outcome = s.outcome := (State.advanceStage_frame s).2.2.2.2.2.2.2.2.2.2.2.2.2.2.1
@[simp] theorem State.advanceStage_fetch (s : State) : (s.advanceStage).fetch = s.fetch := (State.advanceStage_frame s).2.2.2.2.2.2.2.2.2.2.2.2.2.2.2.1
@[simp] theorem State.advanceStage_pred (s : State) : (s.advanceStage).pred = s.pred := (State.advanceStage_frame s).2.2.2.2.2.2.2.2.2.2.2.2.2.2.2.2.1
@[simp] theorem State.advanceStage_icache (s : State) : (s.advanceStage).icache = s.icache := (State.advanceStage_frame s).2.2.2.2.2.2.2.2.2.2.2.2.2.2.2.2.2.1
@[simp] theorem State.advanceStage_dcache (s : State) : (s.advanceStage).dcache = s.dcache := (State.advanceStage_frame s).2.2.2.2.2.2.2.2.2.2.2.2.2.2.2.2.2.2.1
@[simp] theorem State.advanceStage_driver (s : State) : (s.advanceStage).driver = s.driver := (State.advanceStage_frame s).2.2.2.2.2.2.2.2.2.2.2.2.2.2.2.2.2.2.2

/-- The fields `State.broadcastOne` leaves alone. -/
theorem State.broadcastOne_frame (s : State) (r : CdbResult) :
    (s.broadcastOne r).cfg = s.cfg ∧
    (s.broadcastOne r).imem = s.imem ∧
    (s.broadcastOne r).rf = s.rf ∧
    (s.broadcastOne r).archPc = s.archPc ∧
    (s.broadcastOne r).mem = s.mem ∧
    (s.broadcastOne r).robHead = s.robHead ∧
    (s.broadcastOne r).robTail = s.robTail ∧
    (s.broadcastOne r).robCount = s.robCount ∧
    (s.broadcastOne r).fu = s.fu ∧
    (s.broadcastOne r).cdbq = s.cdbq ∧
    (s.broadcastOne r).mport = s.mport ∧
    (s.broadcastOne r).fb = s.fb ∧
    (s.broadcastOne r).dl = s.dl ∧
    (s.broadcastOne r).seqNext = s.seqNext ∧
    (s.broadcastOne r).cycle = s.cycle ∧
    (s.broadcastOne r).outcome = s.outcome ∧
    (s.broadcastOne r).metrics = s.metrics ∧
    (s.broadcastOne r).fetch = s.fetch ∧
    (s.broadcastOne r).pred = s.pred ∧
    (s.broadcastOne r).icache = s.icache ∧
    (s.broadcastOne r).dcache = s.dcache ∧
    (s.broadcastOne r).driver = s.driver := by
  unfold State.broadcastOne
  dsimp only
  cases r.exception <;> simp

@[simp] theorem State.broadcastOne_cfg (s : State) (r : CdbResult) : (s.broadcastOne r).cfg = s.cfg := (State.broadcastOne_frame s r).1
@[simp] theorem State.broadcastOne_imem (s : State) (r : CdbResult) : (s.broadcastOne r).imem = s.imem := (State.broadcastOne_frame s r).2.1
@[simp] theorem State.broadcastOne_rf (s : State) (r : CdbResult) : (s.broadcastOne r).rf = s.rf := (State.broadcastOne_frame s r).2.2.1
@[simp] theorem State.broadcastOne_archPc (s : State) (r : CdbResult) : (s.broadcastOne r).archPc = s.archPc := (State.broadcastOne_frame s r).2.2.2.1
@[simp] theorem State.broadcastOne_mem (s : State) (r : CdbResult) : (s.broadcastOne r).mem = s.mem := (State.broadcastOne_frame s r).2.2.2.2.1
@[simp] theorem State.broadcastOne_robHead (s : State) (r : CdbResult) : (s.broadcastOne r).robHead = s.robHead := (State.broadcastOne_frame s r).2.2.2.2.2.1
@[simp] theorem State.broadcastOne_robTail (s : State) (r : CdbResult) : (s.broadcastOne r).robTail = s.robTail := (State.broadcastOne_frame s r).2.2.2.2.2.2.1
@[simp] theorem State.broadcastOne_robCount (s : State) (r : CdbResult) : (s.broadcastOne r).robCount = s.robCount := (State.broadcastOne_frame s r).2.2.2.2.2.2.2.1
@[simp] theorem State.broadcastOne_fu (s : State) (r : CdbResult) : (s.broadcastOne r).fu = s.fu := (State.broadcastOne_frame s r).2.2.2.2.2.2.2.2.1
@[simp] theorem State.broadcastOne_cdbq (s : State) (r : CdbResult) : (s.broadcastOne r).cdbq = s.cdbq := (State.broadcastOne_frame s r).2.2.2.2.2.2.2.2.2.1
@[simp] theorem State.broadcastOne_mport (s : State) (r : CdbResult) : (s.broadcastOne r).mport = s.mport := (State.broadcastOne_frame s r).2.2.2.2.2.2.2.2.2.2.1
@[simp] theorem State.broadcastOne_fb (s : State) (r : CdbResult) : (s.broadcastOne r).fb = s.fb := (State.broadcastOne_frame s r).2.2.2.2.2.2.2.2.2.2.2.1
@[simp] theorem State.broadcastOne_dl (s : State) (r : CdbResult) : (s.broadcastOne r).dl = s.dl := (State.broadcastOne_frame s r).2.2.2.2.2.2.2.2.2.2.2.2.1
@[simp] theorem State.broadcastOne_seqNext (s : State) (r : CdbResult) : (s.broadcastOne r).seqNext = s.seqNext := (State.broadcastOne_frame s r).2.2.2.2.2.2.2.2.2.2.2.2.2.1
@[simp] theorem State.broadcastOne_cycle (s : State) (r : CdbResult) : (s.broadcastOne r).cycle = s.cycle := (State.broadcastOne_frame s r).2.2.2.2.2.2.2.2.2.2.2.2.2.2.1
@[simp] theorem State.broadcastOne_outcome (s : State) (r : CdbResult) : (s.broadcastOne r).outcome = s.outcome := (State.broadcastOne_frame s r).2.2.2.2.2.2.2.2.2.2.2.2.2.2.2.1
@[simp] theorem State.broadcastOne_metrics (s : State) (r : CdbResult) : (s.broadcastOne r).metrics = s.metrics := (State.broadcastOne_frame s r).2.2.2.2.2.2.2.2.2.2.2.2.2.2.2.2.1
@[simp] theorem State.broadcastOne_fetch (s : State) (r : CdbResult) : (s.broadcastOne r).fetch = s.fetch := (State.broadcastOne_frame s r).2.2.2.2.2.2.2.2.2.2.2.2.2.2.2.2.2.1
@[simp] theorem State.broadcastOne_pred (s : State) (r : CdbResult) : (s.broadcastOne r).pred = s.pred := (State.broadcastOne_frame s r).2.2.2.2.2.2.2.2.2.2.2.2.2.2.2.2.2.2.1
@[simp] theorem State.broadcastOne_icache (s : State) (r : CdbResult) : (s.broadcastOne r).icache = s.icache := (State.broadcastOne_frame s r).2.2.2.2.2.2.2.2.2.2.2.2.2.2.2.2.2.2.2.1
@[simp] theorem State.broadcastOne_dcache (s : State) (r : CdbResult) : (s.broadcastOne r).dcache = s.dcache := (State.broadcastOne_frame s r).2.2.2.2.2.2.2.2.2.2.2.2.2.2.2.2.2.2.2.2.1
@[simp] theorem State.broadcastOne_driver (s : State) (r : CdbResult) : (s.broadcastOne r).driver = s.driver := (State.broadcastOne_frame s r).2.2.2.2.2.2.2.2.2.2.2.2.2.2.2.2.2.2.2.2.2

/-- The fields `broadcastAll` leaves alone. -/
theorem broadcastAll_frame (l : List CdbResult) (s : State) :
    (broadcastAll l s).cfg = s.cfg ∧
    (broadcastAll l s).imem = s.imem ∧
    (broadcastAll l s).rf = s.rf ∧
    (broadcastAll l s).archPc = s.archPc ∧
    (broadcastAll l s).mem = s.mem ∧
    (broadcastAll l s).robHead = s.robHead ∧
    (broadcastAll l s).robTail = s.robTail ∧
    (broadcastAll l s).robCount = s.robCount ∧
    (broadcastAll l s).fu = s.fu ∧
    (broadcastAll l s).cdbq = s.cdbq ∧
    (broadcastAll l s).mport = s.mport ∧
    (broadcastAll l s).fb = s.fb ∧
    (broadcastAll l s).dl = s.dl ∧
    (broadcastAll l s).seqNext = s.seqNext ∧
    (broadcastAll l s).cycle = s.cycle ∧
    (broadcastAll l s).outcome = s.outcome ∧
    (broadcastAll l s).metrics = s.metrics ∧
    (broadcastAll l s).fetch = s.fetch ∧
    (broadcastAll l s).pred = s.pred ∧
    (broadcastAll l s).icache = s.icache ∧
    (broadcastAll l s).dcache = s.dcache ∧
    (broadcastAll l s).driver = s.driver := by
  induction l generalizing s with
  | nil => simp [broadcastAll]
  | cons r l ih => simp [broadcastAll, ih]

@[simp] theorem broadcastAll_cfg (l : List CdbResult) (s : State) : (broadcastAll l s).cfg = s.cfg := (broadcastAll_frame l s).1
@[simp] theorem broadcastAll_imem (l : List CdbResult) (s : State) : (broadcastAll l s).imem = s.imem := (broadcastAll_frame l s).2.1
@[simp] theorem broadcastAll_rf (l : List CdbResult) (s : State) : (broadcastAll l s).rf = s.rf := (broadcastAll_frame l s).2.2.1
@[simp] theorem broadcastAll_archPc (l : List CdbResult) (s : State) : (broadcastAll l s).archPc = s.archPc := (broadcastAll_frame l s).2.2.2.1
@[simp] theorem broadcastAll_mem (l : List CdbResult) (s : State) : (broadcastAll l s).mem = s.mem := (broadcastAll_frame l s).2.2.2.2.1
@[simp] theorem broadcastAll_robHead (l : List CdbResult) (s : State) : (broadcastAll l s).robHead = s.robHead := (broadcastAll_frame l s).2.2.2.2.2.1
@[simp] theorem broadcastAll_robTail (l : List CdbResult) (s : State) : (broadcastAll l s).robTail = s.robTail := (broadcastAll_frame l s).2.2.2.2.2.2.1
@[simp] theorem broadcastAll_robCount (l : List CdbResult) (s : State) : (broadcastAll l s).robCount = s.robCount := (broadcastAll_frame l s).2.2.2.2.2.2.2.1
@[simp] theorem broadcastAll_fu (l : List CdbResult) (s : State) : (broadcastAll l s).fu = s.fu := (broadcastAll_frame l s).2.2.2.2.2.2.2.2.1
@[simp] theorem broadcastAll_cdbq (l : List CdbResult) (s : State) : (broadcastAll l s).cdbq = s.cdbq := (broadcastAll_frame l s).2.2.2.2.2.2.2.2.2.1
@[simp] theorem broadcastAll_mport (l : List CdbResult) (s : State) : (broadcastAll l s).mport = s.mport := (broadcastAll_frame l s).2.2.2.2.2.2.2.2.2.2.1
@[simp] theorem broadcastAll_fb (l : List CdbResult) (s : State) : (broadcastAll l s).fb = s.fb := (broadcastAll_frame l s).2.2.2.2.2.2.2.2.2.2.2.1
@[simp] theorem broadcastAll_dl (l : List CdbResult) (s : State) : (broadcastAll l s).dl = s.dl := (broadcastAll_frame l s).2.2.2.2.2.2.2.2.2.2.2.2.1
@[simp] theorem broadcastAll_seqNext (l : List CdbResult) (s : State) : (broadcastAll l s).seqNext = s.seqNext := (broadcastAll_frame l s).2.2.2.2.2.2.2.2.2.2.2.2.2.1
@[simp] theorem broadcastAll_cycle (l : List CdbResult) (s : State) : (broadcastAll l s).cycle = s.cycle := (broadcastAll_frame l s).2.2.2.2.2.2.2.2.2.2.2.2.2.2.1
@[simp] theorem broadcastAll_outcome (l : List CdbResult) (s : State) : (broadcastAll l s).outcome = s.outcome := (broadcastAll_frame l s).2.2.2.2.2.2.2.2.2.2.2.2.2.2.2.1
@[simp] theorem broadcastAll_metrics (l : List CdbResult) (s : State) : (broadcastAll l s).metrics = s.metrics := (broadcastAll_frame l s).2.2.2.2.2.2.2.2.2.2.2.2.2.2.2.2.1
@[simp] theorem broadcastAll_fetch (l : List CdbResult) (s : State) : (broadcastAll l s).fetch = s.fetch := (broadcastAll_frame l s).2.2.2.2.2.2.2.2.2.2.2.2.2.2.2.2.2.1
@[simp] theorem broadcastAll_pred (l : List CdbResult) (s : State) : (broadcastAll l s).pred = s.pred := (broadcastAll_frame l s).2.2.2.2.2.2.2.2.2.2.2.2.2.2.2.2.2.2.1
@[simp] theorem broadcastAll_icache (l : List CdbResult) (s : State) : (broadcastAll l s).icache = s.icache := (broadcastAll_frame l s).2.2.2.2.2.2.2.2.2.2.2.2.2.2.2.2.2.2.2.1
@[simp] theorem broadcastAll_dcache (l : List CdbResult) (s : State) : (broadcastAll l s).dcache = s.dcache := (broadcastAll_frame l s).2.2.2.2.2.2.2.2.2.2.2.2.2.2.2.2.2.2.2.2.1
@[simp] theorem broadcastAll_driver (l : List CdbResult) (s : State) : (broadcastAll l s).driver = s.driver := (broadcastAll_frame l s).2.2.2.2.2.2.2.2.2.2.2.2.2.2.2.2.2.2.2.2.2

/-- The fields `State.broadcastStage` leaves alone. -/
theorem State.broadcastStage_frame (s : State) :
    (s.broadcastStage).cfg = s.cfg ∧
    (s.broadcastStage).imem = s.imem ∧
    (s.broadcastStage).rf = s.rf ∧
    (s.broadcastStage).archPc = s.archPc ∧
    (s.broadcastStage).mem = s.mem ∧
    (s.broadcastStage).robHead = s.robHead ∧
    (s.broadcastStage).robTail = s.robTail ∧
    (s.broadcastStage).robCount = s.robCount ∧
    (s.broadcastStage).fu = s.fu ∧
    (s.broadcastStage).mport = s.mport ∧
    (s.broadcastStage).fb = s.fb ∧
    (s.broadcastStage).dl = s.dl ∧
    (s.broadcastStage).seqNext = s.seqNext ∧
    (s.broadcastStage).cycle = s.cycle ∧
    (s.broadcastStage).outcome = s.outcome ∧
    (s.broadcastStage).metrics = s.metrics ∧
    (s.broadcastStage).fetch = s.fetch ∧
    (s.broadcastStage).pred = s.pred ∧
    (s.broadcastStage).icache = s.icache ∧
    (s.broadcastStage).dcache = s.dcache ∧
    (s.broadcastStage).driver = s.driver := by
  simp [State.broadcastStage]

@[simp] theorem State.broadcastStage_cfg (s : State) : (s.broadcastStage).cfg = s.cfg := (State.broadcastStage_frame s).1
@[simp] theorem State.broadcastStage_imem (s : State) : (s.broadcastStage).imem = s.imem := (State.broadcastStage_frame s).2.1
@[simp] theorem State.broadcastStage_rf (s : State) : (s.broadcastStage).rf = s.rf := (State.broadcastStage_frame s).2.2.1
@[simp] theorem State.broadcastStage_archPc (s : State) : (s.broadcastStage).archPc = s.archPc := (State.broadcastStage_frame s).2.2.2.1
@[simp] theorem State.broadcastStage_mem (s : State) : (s.broadcastStage).mem = s.mem := (State.broadcastStage_frame s).2.2.2.2.1
@[simp] theorem State.broadcastStage_robHead (s : State) : (s.broadcastStage).robHead = s.robHead := (State.broadcastStage_frame s).2.2.2.2.2.1
@[simp] theorem State.broadcastStage_robTail (s : State) : (s.broadcastStage).robTail = s.robTail := (State.broadcastStage_frame s).2.2.2.2.2.2.1
@[simp] theorem State.broadcastStage_robCount (s : State) : (s.broadcastStage).robCount = s.robCount := (State.broadcastStage_frame s).2.2.2.2.2.2.2.1
@[simp] theorem State.broadcastStage_fu (s : State) : (s.broadcastStage).fu = s.fu := (State.broadcastStage_frame s).2.2.2.2.2.2.2.2.1
@[simp] theorem State.broadcastStage_mport (s : State) : (s.broadcastStage).mport = s.mport := (State.broadcastStage_frame s).2.2.2.2.2.2.2.2.2.1
@[simp] theorem State.broadcastStage_fb (s : State) : (s.broadcastStage).fb = s.fb := (State.broadcastStage_frame s).2.2.2.2.2.2.2.2.2.2.1
@[simp] theorem State.broadcastStage_dl (s : State) : (s.broadcastStage).dl = s.dl := (State.broadcastStage_frame s).2.2.2.2.2.2.2.2.2.2.2.1
@[simp] theorem State.broadcastStage_seqNext (s : State) : (s.broadcastStage).seqNext = s.seqNext := (State.broadcastStage_frame s).2.2.2.2.2.2.2.2.2.2.2.2.1
@[simp] theorem State.broadcastStage_cycle (s : State) : (s.broadcastStage).cycle = s.cycle := (State.broadcastStage_frame s).2.2.2.2.2.2.2.2.2.2.2.2.2.1
@[simp] theorem State.broadcastStage_outcome (s : State) : (s.broadcastStage).outcome = s.outcome := (State.broadcastStage_frame s).2.2.2.2.2.2.2.2.2.2.2.2.2.2.1
@[simp] theorem State.broadcastStage_metrics (s : State) : (s.broadcastStage).metrics = s.metrics := (State.broadcastStage_frame s).2.2.2.2.2.2.2.2.2.2.2.2.2.2.2.1
@[simp] theorem State.broadcastStage_fetch (s : State) : (s.broadcastStage).fetch = s.fetch := (State.broadcastStage_frame s).2.2.2.2.2.2.2.2.2.2.2.2.2.2.2.2.1
@[simp] theorem State.broadcastStage_pred (s : State) : (s.broadcastStage).pred = s.pred := (State.broadcastStage_frame s).2.2.2.2.2.2.2.2.2.2.2.2.2.2.2.2.2.1
@[simp] theorem State.broadcastStage_icache (s : State) : (s.broadcastStage).icache = s.icache := (State.broadcastStage_frame s).2.2.2.2.2.2.2.2.2.2.2.2.2.2.2.2.2.2.1
@[simp] theorem State.broadcastStage_dcache (s : State) : (s.broadcastStage).dcache = s.dcache := (State.broadcastStage_frame s).2.2.2.2.2.2.2.2.2.2.2.2.2.2.2.2.2.2.2.1
@[simp] theorem State.broadcastStage_driver (s : State) : (s.broadcastStage).driver = s.driver := (State.broadcastStage_frame s).2.2.2.2.2.2.2.2.2.2.2.2.2.2.2.2.2.2.2.2

/-- The fields `State.executeStage` leaves alone. -/
theorem State.executeStage_frame (s : State) :
    (s.executeStage).cfg = s.cfg ∧
    (s.executeStage).imem = s.imem ∧
    (s.executeStage).rf = s.rf ∧
    (s.executeStage).archPc = s.archPc ∧
    (s.executeStage).mem = s.mem ∧
    (s.executeStage).robHead = s.robHead ∧
    (s.executeStage).robTail = s.robTail ∧
    (s.executeStage).robCount = s.robCount ∧
    (s.executeStage).mport = s.mport ∧
    (s.executeStage).fb = s.fb ∧
    (s.executeStage).dl = s.dl ∧
    (s.executeStage).seqNext = s.seqNext ∧
    (s.executeStage).cycle = s.cycle ∧
    (s.executeStage).outcome = s.outcome ∧
    (s.executeStage).fetch = s.fetch ∧
    (s.executeStage).pred = s.pred ∧
    (s.executeStage).icache = s.icache ∧
    (s.executeStage).dcache = s.dcache ∧
    (s.executeStage).driver = s.driver := by
  simp [State.executeStage]

@[simp] theorem State.executeStage_cfg (s : State) : (s.executeStage).cfg = s.cfg := (State.executeStage_frame s).1
@[simp] theorem State.executeStage_imem (s : State) : (s.executeStage).imem = s.imem := (State.executeStage_frame s).2.1
@[simp] theorem State.executeStage_rf (s : State) : (s.executeStage).rf = s.rf := (State.executeStage_frame s).2.2.1
@[simp] theorem State.executeStage_archPc (s : State) : (s.executeStage).archPc = s.archPc := (State.executeStage_frame s).2.2.2.1
@[simp] theorem State.executeStage_mem (s : State) : (s.executeStage).mem = s.mem := (State.executeStage_frame s).2.2.2.2.1
@[simp] theorem State.executeStage_robHead (s : State) : (s.executeStage).robHead = s.robHead := (State.executeStage_frame s).2.2.2.2.2.1
@[simp] theorem State.executeStage_robTail (s : State) : (s.executeStage).robTail = s.robTail := (State.executeStage_frame s).2.2.2.2.2.2.1
@[simp] theorem State.executeStage_robCount (s : State) : (s.executeStage).robCount = s.robCount := (State.executeStage_frame s).2.2.2.2.2.2.2.1
@[simp] theorem State.executeStage_mport (s : State) : (s.executeStage).mport = s.mport := (State.executeStage_frame s).2.2.2.2.2.2.2.2.1
@[simp] theorem State.executeStage_fb (s : State) : (s.executeStage).fb = s.fb := (State.executeStage_frame s).2.2.2.2.2.2.2.2.2.1
@[simp] theorem State.executeStage_dl (s : State) : (s.executeStage).dl = s.dl := (State.executeStage_frame s).2.2.2.2.2.2.2.2.2.2.1
@[simp] theorem State.executeStage_seqNext (s : State) : (s.executeStage).seqNext = s.seqNext := (State.executeStage_frame s).2.2.2.2.2.2.2.2.2.2.2.1
@[simp] theorem State.executeStage_cycle (s : State) : (s.executeStage).cycle = s.cycle := (State.executeStage_frame s).2.2.2.2.2.2.2.2.2.2.2.2.1
@[simp] theorem State.executeStage_outcome (s : State) : (s.executeStage).outcome = s.outcome := (State.executeStage_frame s).2.2.2.2.2.2.2.2.2.2.2.2.2.1
@[simp] theorem State.executeStage_fetch (s : State) : (s.executeStage).fetch = s.fetch := (State.executeStage_frame s).2.2.2.2.2.2.2.2.2.2.2.2.2.2.1
@[simp] theorem State.executeStage_pred (s : State) : (s.executeStage).pred = s.pred := (State.executeStage_frame s).2.2.2.2.2.2.2.2.2.2.2.2.2.2.2.1
@[simp] theorem State.executeStage_icache (s : State) : (s.executeStage).icache = s.icache := (State.executeStage_frame s).2.2.2.2.2.2.2.2.2.2.2.2.2.2.2.2.1
@[simp] theorem State.executeStage_dcache (s : State) : (s.executeStage).dcache = s.dcache := (State.executeStage_frame s).2.2.2.2.2.2.2.2.2.2.2.2.2.2.2.2.2.1
@[simp] theorem State.executeStage_driver (s : State) : (s.executeStage).driver = s.driver := (State.executeStage_frame s).2.2.2.2.2.2.2.2.2.2.2.2.2.2.2.2.2.2

/-- The fields `issueLoop` leaves alone. -/
theorem issueLoop_frame (n : Nat) (s : State) :
    (issueLoop n s).cfg = s.cfg ∧
    (issueLoop n s).imem = s.imem ∧
    (issueLoop n s).rf = s.rf ∧
    (issueLoop n s).archPc = s.archPc ∧
    (issueLoop n s).mem = s.mem ∧
    (issueLoop n s).rob = s.rob ∧
    (issueLoop n s).robHead = s.robHead ∧
    (issueLoop n s).robTail = s.robTail ∧
    (issueLoop n s).robCount = s.robCount ∧
    (issueLoop n s).fu = s.fu ∧
    (issueLoop n s).cdbq = s.cdbq ∧
    (issueLoop n s).lsq = s.lsq ∧
    (issueLoop n s).mport = s.mport ∧
    (issueLoop n s).fb = s.fb ∧
    (issueLoop n s).seqNext = s.seqNext ∧
    (issueLoop n s).cycle = s.cycle ∧
    (issueLoop n s).outcome = s.outcome ∧
    (issueLoop n s).metrics = s.metrics ∧
    (issueLoop n s).fetch = s.fetch ∧
    (issueLoop n s).pred = s.pred ∧
    (issueLoop n s).icache = s.icache ∧
    (issueLoop n s).dcache = s.dcache ∧
    (issueLoop n s).driver = s.driver := by
  induction n generalizing s with
  | zero => simp [issueLoop]
  | succ n ih => unfold issueLoop; (repeat' split) <;> simp [ih]

@[simp] theorem issueLoop_cfg (n : Nat) (s : State) : (issueLoop n s).cfg = s.cfg := (issueLoop_frame n s).1
@[simp] theorem issueLoop_imem (n : Nat) (s : State) : (issueLoop n s).imem = s.imem := (issueLoop_frame n s).2.1
@[simp] theorem issueLoop_rf (n : Nat) (s : State) : (issueLoop n s).rf = s.rf := (issueLoop_frame n s).2.2.1
@[simp] theorem issueLoop_archPc (n : Nat) (s : State) : (issueLoop n s).archPc = s.archPc := (issueLoop_frame n s).2.2.2.1
@[simp] theorem issueLoop_mem (n : Nat) (s : State) : (issueLoop n s).mem = s.mem := (issueLoop_frame n s).2.2.2.2.1
@[simp] theorem issueLoop_rob (n : Nat) (s : State) : (issueLoop n s).rob = s.rob := (issueLoop_frame n s).2.2.2.2.2.1
@[simp] theorem issueLoop_robHead (n : Nat) (s : State) : (issueLoop n s).robHead = s.robHead := (issueLoop_frame n s).2.2.2.2.2.2.1
@[simp] theorem issueLoop_robTail (n : Nat) (s : State) : (issueLoop n s).robTail = s.robTail := (issueLoop_frame n s).2.2.2.2.2.2.2.1
@[simp] theorem issueLoop_robCount (n : Nat) (s : State) : (issueLoop n s).robCount = s.robCount := (issueLoop_frame n s).2.2.2.2.2.2.2.2.1
@[simp] theorem issueLoop_fu (n : Nat) (s : State) : (issueLoop n s).fu = s.fu := (issueLoop_frame n s).2.2.2.2.2.2.2.2.2.1
@[simp] theorem issueLoop_cdbq (n : Nat) (s : State) : (issueLoop n s).cdbq = s.cdbq := (issueLoop_frame n s).2.2.2.2.2.2.2.2.2.2.1
@[simp] theorem issueLoop_lsq (n : Nat) (s : State) : (issueLoop n s).lsq = s.lsq := (issueLoop_frame n s).2.2.2.2.2.2.2.2.2.2.2.1
@[simp] theorem issueLoop_mport (n : Nat) (s : State) : (issueLoop n s).mport = s.mport := (issueLoop_frame n s).2.2.2.2.2.2.2.2.2.2.2.2.1
@[simp] theorem issueLoop_fb (n : Nat) (s : State) : (issueLoop n s).fb = s.fb := (issueLoop_frame n s).2.2.2.2.2.2.2.2.2.2.2.2.2.1
@[simp] theorem issueLoop_seqNext (n : Nat) (s : State) : (issueLoop n s).seqNext = s.seqNext := (issueLoop_frame n s).2.2.2.2.2.2.2.2.2.2.2.2.2.2.1
@[simp] theorem issueLoop_cycle (n : Nat) (s : State) : (issueLoop n s).cycle = s.cycle := (issueLoop_frame n s).2.2.2.2.2.2.2.2.2.2.2.2.2.2.2.1
@[simp] theorem issueLoop_outcome (n : Nat) (s : State) : (issueLoop n s).outcome = s.outcome := (issueLoop_frame n s).2.2.2.2.2.2.2.2.2.2.2.2.2.2.2.2.1
@[simp] theorem issueLoop_metrics (n : Nat) (s : State) : (issueLoop n s).metrics = s.metrics := (issueLoop_frame n s).2.2.2.2.2.2.2.2.2.2.2.2.2.2.2.2.2.1
@[simp] theorem issueLoop_fetch (n : Nat) (s : State) : (issueLoop n s).fetch = s.fetch := (issueLoop_frame n s).2.2.2.2.2.2.2.2.2.2.2.2.2.2.2.2.2.2.1
@[simp] theorem issueLoop_pred (n : Nat) (s : State) : (issueLoop n s).pred = s.pred := (issueLoop_frame n s).2.2.2.2.2.2.2.2.2.2.2.2.2.2.2.2.2.2.2.1
@[simp] theorem issueLoop_icache (n : Nat) (s : State) : (issueLoop n s).icache = s.icache := (issueLoop_frame n s).2.2.2.2.2.2.2.2.2.2.2.2.2.2.2.2.2.2.2.2.1
@[simp] theorem issueLoop_dcache (n : Nat) (s : State) : (issueLoop n s).dcache = s.dcache := (issueLoop_frame n s).2.2.2.2.2.2.2.2.2.2.2.2.2.2.2.2.2.2.2.2.2.1
@[simp] theorem issueLoop_driver (n : Nat) (s : State) : (issueLoop n s).driver = s.driver := (issueLoop_frame n s).2.2.2.2.2.2.2.2.2.2.2.2.2.2.2.2.2.2.2.2.2.2

/-- The fields `State.issueStage` leaves alone. -/
theorem State.issueStage_frame (s : State) :
    (s.issueStage).cfg = s.cfg ∧
    (s.issueStage).imem = s.imem ∧
    (s.issueStage).rf = s.rf ∧
    (s.issueStage).archPc = s.archPc ∧
    (s.issueStage).mem = s.mem ∧
    (s.issueStage).rob = s.rob ∧
    (s.issueStage).robHead = s.robHead ∧
    (s.issueStage).robTail = s.robTail ∧
    (s.issueStage).robCount = s.robCount ∧
    (s.issueStage).fu = s.fu ∧
    (s.issueStage).cdbq = s.cdbq ∧
    (s.issueStage).lsq = s.lsq ∧
    (s.issueStage).mport = s.mport ∧
    (s.issueStage).fb = s.fb ∧
    (s.issueStage).seqNext = s.seqNext ∧
    (s.issueStage).cycle = s.cycle ∧
    (s.issueStage).outcome = s.outcome ∧
    (s.issueStage).metrics = s.metrics ∧
    (s.issueStage).fetch = s.fetch ∧
    (s.issueStage).pred = s.pred ∧
    (s.issueStage).icache = s.icache ∧
    (s.issueStage).dcache = s.dcache ∧
    (s.issueStage).driver = s.driver := by
  simp [State.issueStage]

@[simp] theorem State.issueStage_cfg (s : State) : (s.issueStage).cfg = s.cfg := (State.issueStage_frame s).1
@[simp] theorem State.issueStage_imem (s : State) : (s.issueStage).imem = s.imem := (State.issueStage_frame s).2.1
@[simp] theorem State.issueStage_rf (s : State) : (s.issueStage).rf = s.rf := (State.issueStage_frame s).2.2.1
@[simp] theorem State.issueStage_archPc (s : State) : (s.issueStage).archPc = s.archPc := (State.issueStage_frame s).2.2.2.1
@[simp] theorem State.issueStage_mem (s : State) : (s.issueStage).mem = s.mem := (State.issueStage_frame s).2.2.2.2.1
@[simp] theorem State.issueStage_rob (s : State) : (s.issueStage).rob = s.rob := (State.issueStage_frame s).2.2.2.2.2.1
@[simp] theorem State.issueStage_robHead (s : State) : (s.issueStage).robHead = s.robHead := (State.issueStage_frame s).2.2.2.2.2.2.1
@[simp] theorem State.issueStage_robTail (s : State) : (s.issueStage).robTail = s.robTail := (State.issueStage_frame s).2.2.2.2.2.2.2.1
@[simp] theorem State.issueStage_robCount (s : State) : (s.issueStage).robCount = s.robCount := (State.issueStage_frame s).2.2.2.2.2.2.2.2.1
@[simp] theorem State.issueStage_fu (s : State) : (s.issueStage).fu = s.fu := (State.issueStage_frame s).2.2.2.2.2.2.2.2.2.1
@[simp] theorem State.issueStage_cdbq (s : State) : (s.issueStage).cdbq = s.cdbq := (State.issueStage_frame s).2.2.2.2.2.2.2.2.2.2.1
@[simp] theorem State.issueStage_lsq (s : State) : (s.issueStage).lsq = s.lsq := (State.issueStage_frame s).2.2.2.2.2.2.2.2.2.2.2.1
@[simp] theorem State.issueStage_mport (s : State) : (s.issueStage).mport = s.mport := (State.issueStage_frame s).2.2.2.2.2.2.2.2.2.2.2.2.1
@[simp] theorem State.issueStage_fb (s : State) : (s.issueStage).fb = s.fb := (State.issueStage_frame s).2.2.2.2.2.2.2.2.2.2.2.2.2.1
@[simp] theorem State.issueStage_seqNext (s : State) : (s.issueStage).seqNext = s.seqNext := (State.issueStage_frame s).2.2.2.2.2.2.2.2.2.2.2.2.2.2.1
@[simp] theorem State.issueStage_cycle (s : State) : (s.issueStage).cycle = s.cycle := (State.issueStage_frame s).2.2.2.2.2.2.2.2.2.2.2.2.2.2.2.1
@[simp] theorem State.issueStage_outcome (s : State) : (s.issueStage).outcome = s.outcome := (State.issueStage_frame s).2.2.2.2.2.2.2.2.2.2.2.2.2.2.2.2.1
@[simp] theorem State.issueStage_metrics (s : State) : (s.issueStage).metrics = s.metrics := (State.issueStage_frame s).2.2.2.2.2.2.2.2.2.2.2.2.2.2.2.2.2.1
@[simp] theorem State.issueStage_fetch (s : State) : (s.issueStage).fetch = s.fetch := (State.issueStage_frame s).2.2.2.2.2.2.2.2.2.2.2.2.2.2.2.2.2.2.1
@[simp] theorem State.issueStage_pred (s : State) : (s.issueStage).pred = s.pred := (State.issueStage_frame s).2.2.2.2.2.2.2.2.2.2.2.2.2.2.2.2.2.2.2.1
@[simp] theorem State.issueStage_icache (s : State) : (s.issueStage).icache = s.icache := (State.issueStage_frame s).2.2.2.2.2.2.2.2.2.2.2.2.2.2.2.2.2.2.2.2.1
@[simp] theorem State.issueStage_dcache (s : State) : (s.issueStage).dcache = s.dcache := (State.issueStage_frame s).2.2.2.2.2.2.2.2.2.2.2.2.2.2.2.2.2.2.2.2.2.1
@[simp] theorem State.issueStage_driver (s : State) : (s.issueStage).driver = s.driver := (State.issueStage_frame s).2.2.2.2.2.2.2.2.2.2.2.2.2.2.2.2.2.2.2.2.2.2

/-- The fields `State.allocate` leaves alone. -/
theorem State.allocate_frame (s : State) (f : FetchRec) :
    (s.allocate f).cfg = s.cfg ∧
    (s.allocate f).imem = s.imem ∧
    (s.allocate f).archPc = s.archPc ∧
    (s.allocate f).mem = s.mem ∧
    (s.allocate f).robHead = s.robHead ∧
    (s.allocate f).rs = s.rs ∧
    (s.allocate f).fu = s.fu ∧
    (s.allocate f).cdbq = s.cdbq ∧
    (s.allocate f).mport = s.mport ∧
    (s.allocate f).fb = s.fb ∧
    (s.allocate f).cycle = s.cycle ∧
    (s.allocate f).outcome = s.outcome ∧
    (s.allocate f).metrics = s.metrics ∧
    (s.allocate f).fetch = s.fetch ∧
    (s.allocate f).pred = s.pred ∧
    (s.allocate f).icache = s.icache ∧
    (s.allocate f).dcache = s.dcache ∧
    (s.allocate f).driver = s.driver := by
  simp [State.allocate]

@[simp] theorem State.allocate_cfg (s : State) (f : FetchRec) : (s.allocate f).cfg = s.cfg := (State.allocate_frame s f).1
@[simp] theorem State.allocate_imem (s : State) (f : FetchRec) : (s.allocate f).imem = s.imem := (State.allocate_frame s f).2.1
@[simp] theorem State.allocate_archPc (s : State) (f : FetchRec) : (s.allocate f).archPc = s.archPc := (State.allocate_frame s f).2.2.1
@[simp] theorem State.allocate_mem (s : State) (f : FetchRec) : (s.allocate f).mem = s.mem := (State.allocate_frame s f).2.2.2.1
@[simp] theorem State.allocate_robHead (s : State) (f : FetchRec) : (s.allocate f).robHead = s.robHead := (State.allocate_frame s f).2.2.2.2.1
@[simp] theorem State.allocate_rs (s : State) (f : FetchRec) : (s.allocate f).rs = s.rs := (State.allocate_frame s f).2.2.2.2.2.1
@[simp] theorem State.allocate_fu (s : State) (f : FetchRec) : (s.allocate f).fu = s.fu := (State.allocate_frame s f).2.2.2.2.2.2.1
@[simp] theorem State.allocate_cdbq (s : State) (f : FetchRec) : (s.allocate f).cdbq = s.cdbq := (State.allocate_frame s f).2.2.2.2.2.2.2.1
@[simp] theorem State.allocate_mport (s : State) (f : FetchRec) : (s.allocate f).mport = s.mport := (State.allocate_frame s f).2.2.2.2.2.2.2.2.1
@[simp] theorem State.allocate_fb (s : State) (f : FetchRec) : (s.allocate f).fb = s.fb := (State.allocate_frame s f).2.2.2.2.2.2.2.2.2.1
@[simp] theorem State.allocate_cycle (s : State) (f : FetchRec) : (s.allocate f).cycle = s.cycle := (State.allocate_frame s f).2.2.2.2.2.2.2.2.2.2.1
@[simp] theorem State.allocate_outcome (s : State) (f : FetchRec) : (s.allocate f).outcome = s.outcome := (State.allocate_frame s f).2.2.2.2.2.2.2.2.2.2.2.1
@[simp] theorem State.allocate_metrics (s : State) (f : FetchRec) : (s.allocate f).metrics = s.metrics := (State.allocate_frame s f).2.2.2.2.2.2.2.2.2.2.2.2.1
@[simp] theorem State.allocate_fetch (s : State) (f : FetchRec) : (s.allocate f).fetch = s.fetch := (State.allocate_frame s f).2.2.2.2.2.2.2.2.2.2.2.2.2.1
@[simp] theorem State.allocate_pred (s : State) (f : FetchRec) : (s.allocate f).pred = s.pred := (State.allocate_frame s f).2.2.2.2.2.2.2.2.2.2.2.2.2.2.1
@[simp] theorem State.allocate_icache (s : State) (f : FetchRec) : (s.allocate f).icache = s.icache := (State.allocate_frame s f).2.2.2.2.2.2.2.2.2.2.2.2.2.2.2.1
@[simp] theorem State.allocate_dcache (s : State) (f : FetchRec) : (s.allocate f).dcache = s.dcache := (State.allocate_frame s f).2.2.2.2.2.2.2.2.2.2.2.2.2.2.2.2.1
@[simp] theorem State.allocate_driver (s : State) (f : FetchRec) : (s.allocate f).driver = s.driver := (State.allocate_frame s f).2.2.2.2.2.2.2.2.2.2.2.2.2.2.2.2.2

/-- The fields `decodeLoop` leaves alone. -/
theorem decodeLoop_frame (n : Nat) (r : Room) (s : State) :
    (decodeLoop n r s).cfg = s.cfg ∧
    (decodeLoop n r s).imem = s.imem ∧
    (decodeLoop n r s).archPc = s.archPc ∧
    (decodeLoop n r s).mem = s.mem ∧
    (decodeLoop n r s).robHead = s.robHead ∧
    (decodeLoop n r s).rs = s.rs ∧
    (decodeLoop n r s).fu = s.fu ∧
    (decodeLoop n r s).cdbq = s.cdbq ∧
    (decodeLoop n r s).mport = s.mport ∧
    (decodeLoop n r s).cycle = s.cycle ∧
    (decodeLoop n r s).outcome = s.outcome ∧
    (decodeLoop n r s).fetch = s.fetch ∧
    (decodeLoop n r s).pred = s.pred ∧
    (decodeLoop n r s).icache = s.icache ∧
    (decodeLoop n r s).dcache = s.dcache ∧
    (decodeLoop n r s).driver = s.driver := by
  induction n generalizing r s with
  | zero => simp [decodeLoop]
  | succ n ih => unfold decodeLoop; (repeat' split) <;> simp [ih]

@[simp] theorem decodeLoop_cfg (n : Nat) (r : Room) (s : State) : (decodeLoop n r s).cfg = s.cfg := (decodeLoop_frame n r s).1
@[simp] theorem decodeLoop_imem (n : Nat) (r : Room) (s : State) : (decodeLoop n r s).imem = s.imem := (decodeLoop_frame n r s).2.1
@[simp] theorem decodeLoop_archPc (n : Nat) (r : Room) (s : State) : (decodeLoop n r s).archPc = s.archPc := (decodeLoop_frame n r s).2.2.1
@[simp] theorem decodeLoop_mem (n : Nat) (r : Room) (s : State) : (decodeLoop n r s).mem = s.mem := (decodeLoop_frame n r s).2.2.2.1
@[simp] theorem decodeLoop_robHead (n : Nat) (r : Room) (s : State) : (decodeLoop n r s).robHead = s.robHead := (decodeLoop_frame n r s).2.2.2.2.1
@[simp] theorem decodeLoop_rs (n : Nat) (r : Room) (s : State) : (decodeLoop n r s).rs = s.rs := (decodeLoop_frame n r s).2.2.2.2.2.1
@[simp] theorem decodeLoop_fu (n : Nat) (r : Room) (s : State) : (decodeLoop n r s).fu = s.fu := (decodeLoop_frame n r s).2.2.2.2.2.2.1
@[simp] theorem decodeLoop_cdbq (n : Nat) (r : Room) (s : State) : (decodeLoop n r s).cdbq = s.cdbq := (decodeLoop_frame n r s).2.2.2.2.2.2.2.1
@[simp] theorem decodeLoop_mport (n : Nat) (r : Room) (s : State) : (decodeLoop n r s).mport = s.mport := (decodeLoop_frame n r s).2.2.2.2.2.2.2.2.1
@[simp] theorem decodeLoop_cycle (n : Nat) (r : Room) (s : State) : (decodeLoop n r s).cycle = s.cycle := (decodeLoop_frame n r s).2.2.2.2.2.2.2.2.2.1
@[simp] theorem decodeLoop_outcome (n : Nat) (r : Room) (s : State) : (decodeLoop n r s).outcome = s.outcome := (decodeLoop_frame n r s).2.2.2.2.2.2.2.2.2.2.1
@[simp] theorem decodeLoop_fetch (n : Nat) (r : Room) (s : State) : (decodeLoop n r s).fetch = s.fetch := (decodeLoop_frame n r s).2.2.2.2.2.2.2.2.2.2.2.1
@[simp] theorem decodeLoop_pred (n : Nat) (r : Room) (s : State) : (decodeLoop n r s).pred = s.pred := (decodeLoop_frame n r s).2.2.2.2.2.2.2.2.2.2.2.2.1
@[simp] theorem decodeLoop_icache (n : Nat) (r : Room) (s : State) : (decodeLoop n r s).icache = s.icache := (decodeLoop_frame n r s).2.2.2.2.2.2.2.2.2.2.2.2.2.1
@[simp] theorem decodeLoop_dcache (n : Nat) (r : Room) (s : State) : (decodeLoop n r s).dcache = s.dcache := (decodeLoop_frame n r s).2.2.2.2.2.2.2.2.2.2.2.2.2.2.1
@[simp] theorem decodeLoop_driver (n : Nat) (r : Room) (s : State) : (decodeLoop n r s).driver = s.driver := (decodeLoop_frame n r s).2.2.2.2.2.2.2.2.2.2.2.2.2.2.2

/-- The fields `State.decodeStage` leaves alone. -/
theorem State.decodeStage_frame (s : State) :
    (s.decodeStage).cfg = s.cfg ∧
    (s.decodeStage).imem = s.imem ∧
    (s.decodeStage).archPc = s.archPc ∧
    (s.decodeStage).mem = s.mem ∧
    (s.decodeStage).robHead = s.robHead ∧
    (s.decodeStage).rs = s.rs ∧
    (s.decodeStage).fu = s.fu ∧
    (s.decodeStage).cdbq = s.cdbq ∧
    (s.decodeStage).mport = s.mport ∧
    (s.decodeStage).cycle = s.cycle ∧
    (s.decodeStage).outcome = s.outcome ∧
    (s.decodeStage).fetch = s.fetch ∧
    (s.decodeStage).pred = s.pred ∧
    (s.decodeStage).icache = s.icache ∧
    (s.decodeStage).dcache = s.dcache ∧
    (s.decodeStage).driver = s.driver := by
  unfold State.decodeStage; split <;> simp

@[simp] theorem State.decodeStage_cfg (s : State) : (s.decodeStage).cfg = s.cfg := (State.decodeStage_frame s).1
@[simp] theorem State.decodeStage_imem (s : State) : (s.decodeStage).imem = s.imem := (State.decodeStage_frame s).2.1
@[simp] theorem State.decodeStage_archPc (s : State) : (s.decodeStage).archPc = s.archPc := (State.decodeStage_frame s).2.2.1
@[simp] theorem State.decodeStage_mem (s : State) : (s.decodeStage).mem = s.mem := (State.decodeStage_frame s).2.2.2.1
@[simp] theorem State.decodeStage_robHead (s : State) : (s.decodeStage).robHead = s.robHead := (State.decodeStage_frame s).2.2.2.2.1
@[simp] theorem State.decodeStage_rs (s : State) : (s.decodeStage).rs = s.rs := (State.decodeStage_frame s).2.2.2.2.2.1
@[simp] theorem State.decodeStage_fu (s : State) : (s.decodeStage).fu = s.fu := (State.decodeStage_frame s).2.2.2.2.2.2.1
@[simp] theorem State.decodeStage_cdbq (s : State) : (s.decodeStage).cdbq = s.cdbq := (State.decodeStage_frame s).2.2.2.2.2.2.2.1
@[simp] theorem State.decodeStage_mport (s : State) : (s.decodeStage).mport = s.mport := (State.decodeStage_frame s).2.2.2.2.2.2.2.2.1
@[simp] theorem State.decodeStage_cycle (s : State) : (s.decodeStage).cycle = s.cycle := (State.decodeStage_frame s).2.2.2.2.2.2.2.2.2.1
@[simp] theorem State.decodeStage_outcome (s : State) : (s.decodeStage).outcome = s.outcome := (State.decodeStage_frame s).2.2.2.2.2.2.2.2.2.2.1
@[simp] theorem State.decodeStage_fetch (s : State) : (s.decodeStage).fetch = s.fetch := (State.decodeStage_frame s).2.2.2.2.2.2.2.2.2.2.2.1
@[simp] theorem State.decodeStage_pred (s : State) : (s.decodeStage).pred = s.pred := (State.decodeStage_frame s).2.2.2.2.2.2.2.2.2.2.2.2.1
@[simp] theorem State.decodeStage_icache (s : State) : (s.decodeStage).icache = s.icache := (State.decodeStage_frame s).2.2.2.2.2.2.2.2.2.2.2.2.2.1
@[simp] theorem State.decodeStage_dcache (s : State) : (s.decodeStage).dcache = s.dcache := (State.decodeStage_frame s).2.2.2.2.2.2.2.2.2.2.2.2.2.2.1
@[simp] theorem State.decodeStage_driver (s : State) : (s.decodeStage).driver = s.driver := (State.decodeStage_frame s).2.2.2.2.2.2.2.2.2.2.2.2.2.2.2

/-- The fields `State.deliver` leaves alone. -/
theorem State.deliver_frame (s : State) (r : InstrRecord) (p : Word) :
    ((s.deliver r p).2).cfg = s.cfg ∧
    ((s.deliver r p).2).imem = s.imem ∧
    ((s.deliver r p).2).rf = s.rf ∧
    ((s.deliver r p).2).archPc = s.archPc ∧
    ((s.deliver r p).2).mem = s.mem ∧
    ((s.deliver r p).2).rob = s.rob ∧
    ((s.deliver r p).2).robHead = s.robHead ∧
    ((s.deliver r p).2).robTail = s.robTail ∧
    ((s.deliver r p).2).robCount = s.robCount ∧
    ((s.deliver r p).2).rs = s.rs ∧
    ((s.deliver r p).2).fu = s.fu ∧
    ((s.deliver r p).2).cdbq = s.cdbq ∧
    ((s.deliver r p).2).lsq = s.lsq ∧
    ((s.deliver r p).2).mport = s.mport ∧
    ((s.deliver r p).2).dl = s.dl ∧
    ((s.deliver r p).2).seqNext = s.seqNext ∧
    ((s.deliver r p).2).cycle = s.cycle ∧
    ((s.deliver r p).2).outcome = s.outcome ∧
    ((s.deliver r p).2).metrics = s.metrics ∧
    ((s.deliver r p).2).icache = s.icache ∧
    ((s.deliver r p).2).dcache = s.dcache ∧
    ((s.deliver r p).2).driver = s.driver := by
  simp [State.deliver]

@[simp] theorem State.deliver_cfg (s : State) (r : InstrRecord) (p : Word) : ((s.deliver r p).2).cfg = s.cfg := (State.deliver_frame s r p).1
@[simp] theorem State.deliver_imem (s : State) (r : InstrRecord) (p : Word) : ((s.deliver r p).2).imem = s.imem := (State.deliver_frame s r p).2.1
@[simp] theorem State.deliver_rf (s : State) (r : InstrRecord) (p : Word) : ((s.deliver r p).2).rf = s.rf := (State.deliver_frame s r p).2.2.1
@[simp] theorem State.deliver_archPc (s : State) (r : InstrRecord) (p : Word) : ((s.deliver r p).2).archPc = s.archPc := (State.deliver_frame s r p).2.2.2.1
@[simp] theorem State.deliver_mem (s : State) (r : InstrRecord) (p : Word) : ((s.deliver r p).2).mem = s.mem := (State.deliver_frame s r p).2.2.2.2.1
@[simp] theorem State.deliver_rob (s : State) (r : InstrRecord) (p : Word) : ((s.deliver r p).2).rob = s.rob := (State.deliver_frame s r p).2.2.2.2.2.1
@[simp] theorem State.deliver_robHead (s : State) (r : InstrRecord) (p : Word) : ((s.deliver r p).2).robHead = s.robHead := (State.deliver_frame s r p).2.2.2.2.2.2.1
@[simp] theorem State.deliver_robTail (s : State) (r : InstrRecord) (p : Word) : ((s.deliver r p).2).robTail = s.robTail := (State.deliver_frame s r p).2.2.2.2.2.2.2.1
@[simp] theorem State.deliver_robCount (s : State) (r : InstrRecord) (p : Word) : ((s.deliver r p).2).robCount = s.robCount := (State.deliver_frame s r p).2.2.2.2.2.2.2.2.1
@[simp] theorem State.deliver_rs (s : State) (r : InstrRecord) (p : Word) : ((s.deliver r p).2).rs = s.rs := (State.deliver_frame s r p).2.2.2.2.2.2.2.2.2.1
@[simp] theorem State.deliver_fu (s : State) (r : InstrRecord) (p : Word) : ((s.deliver r p).2).fu = s.fu := (State.deliver_frame s r p).2.2.2.2.2.2.2.2.2.2.1
@[simp] theorem State.deliver_cdbq (s : State) (r : InstrRecord) (p : Word) : ((s.deliver r p).2).cdbq = s.cdbq := (State.deliver_frame s r p).2.2.2.2.2.2.2.2.2.2.2.1
@[simp] theorem State.deliver_lsq (s : State) (r : InstrRecord) (p : Word) : ((s.deliver r p).2).lsq = s.lsq := (State.deliver_frame s r p).2.2.2.2.2.2.2.2.2.2.2.2.1
@[simp] theorem State.deliver_mport (s : State) (r : InstrRecord) (p : Word) : ((s.deliver r p).2).mport = s.mport := (State.deliver_frame s r p).2.2.2.2.2.2.2.2.2.2.2.2.2.1
@[simp] theorem State.deliver_dl (s : State) (r : InstrRecord) (p : Word) : ((s.deliver r p).2).dl = s.dl := (State.deliver_frame s r p).2.2.2.2.2.2.2.2.2.2.2.2.2.2.1
@[simp] theorem State.deliver_seqNext (s : State) (r : InstrRecord) (p : Word) : ((s.deliver r p).2).seqNext = s.seqNext := (State.deliver_frame s r p).2.2.2.2.2.2.2.2.2.2.2.2.2.2.2.1
@[simp] theorem State.deliver_cycle (s : State) (r : InstrRecord) (p : Word) : ((s.deliver r p).2).cycle = s.cycle := (State.deliver_frame s r p).2.2.2.2.2.2.2.2.2.2.2.2.2.2.2.2.1
@[simp] theorem State.deliver_outcome (s : State) (r : InstrRecord) (p : Word) : ((s.deliver r p).2).outcome = s.outcome := (State.deliver_frame s r p).2.2.2.2.2.2.2.2.2.2.2.2.2.2.2.2.2.1
@[simp] theorem State.deliver_metrics (s : State) (r : InstrRecord) (p : Word) : ((s.deliver r p).2).metrics = s.metrics := (State.deliver_frame s r p).2.2.2.2.2.2.2.2.2.2.2.2.2.2.2.2.2.2.1
@[simp] theorem State.deliver_icache (s : State) (r : InstrRecord) (p : Word) : ((s.deliver r p).2).icache = s.icache := (State.deliver_frame s r p).2.2.2.2.2.2.2.2.2.2.2.2.2.2.2.2.2.2.2.1
@[simp] theorem State.deliver_dcache (s : State) (r : InstrRecord) (p : Word) : ((s.deliver r p).2).dcache = s.dcache := (State.deliver_frame s r p).2.2.2.2.2.2.2.2.2.2.2.2.2.2.2.2.2.2.2.2.1
@[simp] theorem State.deliver_driver (s : State) (r : InstrRecord) (p : Word) : ((s.deliver r p).2).driver = s.driver := (State.deliver_frame s r p).2.2.2.2.2.2.2.2.2.2.2.2.2.2.2.2.2.2.2.2.2

/-- The fields `fetchLoop` leaves alone. -/
theorem fetchLoop_frame (n : Nat) (s : State) :
    (fetchLoop n s).cfg = s.cfg ∧
    (fetchLoop n s).imem = s.imem ∧
    (fetchLoop n s).rf = s.rf ∧
    (fetchLoop n s).archPc = s.archPc ∧
    (fetchLoop n s).mem = s.mem ∧
    (fetchLoop n s).rob = s.rob ∧
    (fetchLoop n s).robHead = s.robHead ∧
    (fetchLoop n s).robTail = s.robTail ∧
    (fetchLoop n s).robCount = s.robCount ∧
    (fetchLoop n s).rs = s.rs ∧
    (fetchLoop n s).fu = s.fu ∧
    (fetchLoop n s).cdbq = s.cdbq ∧
    (fetchLoop n s).lsq = s.lsq ∧
    (fetchLoop n s).mport = s.mport ∧
    (fetchLoop n s).dl = s.dl ∧
    (fetchLoop n s).seqNext = s.seqNext ∧
    (fetchLoop n s).cycle = s.cycle ∧
    (fetchLoop n s).outcome = s.outcome ∧
    (fetchLoop n s).dcache = s.dcache ∧
    (fetchLoop n s).driver = s.driver := by
  induction n generalizing s with
  | zero => simp [fetchLoop]
  | succ n ih =>
    unfold fetchLoop
    split
    · simp
    · split
      · simp
      · split
        · rename_i h
          have h' := congrArg Prod.snd h
          dsimp only at h'
          subst h'
          simp
        · rename_i h
          have h₁ := congrArg Prod.snd h
          dsimp only at h₁
          subst h₁
          split <;> rename_i h'
          all_goals
            have h₂ := congrArg Prod.snd h'
            dsimp only at h₂
            subst h₂
            simp [ih]

@[simp] theorem fetchLoop_cfg (n : Nat) (s : State) : (fetchLoop n s).cfg = s.cfg := (fetchLoop_frame n s).1
@[simp] theorem fetchLoop_imem (n : Nat) (s : State) : (fetchLoop n s).imem = s.imem := (fetchLoop_frame n s).2.1
@[simp] theorem fetchLoop_rf (n : Nat) (s : State) : (fetchLoop n s).rf = s.rf := (fetchLoop_frame n s).2.2.1
@[simp] theorem fetchLoop_archPc (n : Nat) (s : State) : (fetchLoop n s).archPc = s.archPc := (fetchLoop_frame n s).2.2.2.1
@[simp] theorem fetchLoop_mem (n : Nat) (s : State) : (fetchLoop n s).mem = s.mem := (fetchLoop_frame n s).2.2.2.2.1
@[simp] theorem fetchLoop_rob (n : Nat) (s : State) : (fetchLoop n s).rob = s.rob := (fetchLoop_frame n s).2.2.2.2.2.1
@[simp] theorem fetchLoop_robHead (n : Nat) (s : State) : (fetchLoop n s).robHead = s.robHead := (fetchLoop_frame n s).2.2.2.2.2.2.1
@[simp] theorem fetchLoop_robTail (n : Nat) (s : State) : (fetchLoop n s).robTail = s.robTail := (fetchLoop_frame n s).2.2.2.2.2.2.2.1
@[simp] theorem fetchLoop_robCount (n : Nat) (s : State) : (fetchLoop n s).robCount = s.robCount := (fetchLoop_frame n s).2.2.2.2.2.2.2.2.1
@[simp] theorem fetchLoop_rs (n : Nat) (s : State) : (fetchLoop n s).rs = s.rs := (fetchLoop_frame n s).2.2.2.2.2.2.2.2.2.1
@[simp] theorem fetchLoop_fu (n : Nat) (s : State) : (fetchLoop n s).fu = s.fu := (fetchLoop_frame n s).2.2.2.2.2.2.2.2.2.2.1
@[simp] theorem fetchLoop_cdbq (n : Nat) (s : State) : (fetchLoop n s).cdbq = s.cdbq := (fetchLoop_frame n s).2.2.2.2.2.2.2.2.2.2.2.1
@[simp] theorem fetchLoop_lsq (n : Nat) (s : State) : (fetchLoop n s).lsq = s.lsq := (fetchLoop_frame n s).2.2.2.2.2.2.2.2.2.2.2.2.1
@[simp] theorem fetchLoop_mport (n : Nat) (s : State) : (fetchLoop n s).mport = s.mport := (fetchLoop_frame n s).2.2.2.2.2.2.2.2.2.2.2.2.2.1
@[simp] theorem fetchLoop_dl (n : Nat) (s : State) : (fetchLoop n s).dl = s.dl := (fetchLoop_frame n s).2.2.2.2.2.2.2.2.2.2.2.2.2.2.1
@[simp] theorem fetchLoop_seqNext (n : Nat) (s : State) : (fetchLoop n s).seqNext = s.seqNext := (fetchLoop_frame n s).2.2.2.2.2.2.2.2.2.2.2.2.2.2.2.1
@[simp] theorem fetchLoop_cycle (n : Nat) (s : State) : (fetchLoop n s).cycle = s.cycle := (fetchLoop_frame n s).2.2.2.2.2.2.2.2.2.2.2.2.2.2.2.2.1
@[simp] theorem fetchLoop_outcome (n : Nat) (s : State) : (fetchLoop n s).outcome = s.outcome := (fetchLoop_frame n s).2.2.2.2.2.2.2.2.2.2.2.2.2.2.2.2.2.1
@[simp] theorem fetchLoop_dcache (n : Nat) (s : State) : (fetchLoop n s).dcache = s.dcache := (fetchLoop_frame n s).2.2.2.2.2.2.2.2.2.2.2.2.2.2.2.2.2.2.1
@[simp] theorem fetchLoop_driver (n : Nat) (s : State) : (fetchLoop n s).driver = s.driver := (fetchLoop_frame n s).2.2.2.2.2.2.2.2.2.2.2.2.2.2.2.2.2.2.2

/-- The fields `State.fetchStage` leaves alone. -/
theorem State.fetchStage_frame (s : State) :
    (s.fetchStage).cfg = s.cfg ∧
    (s.fetchStage).imem = s.imem ∧
    (s.fetchStage).rf = s.rf ∧
    (s.fetchStage).archPc = s.archPc ∧
    (s.fetchStage).mem = s.mem ∧
    (s.fetchStage).rob = s.rob ∧
    (s.fetchStage).robHead = s.robHead ∧
    (s.fetchStage).robTail = s.robTail ∧
    (s.fetchStage).robCount = s.robCount ∧
    (s.fetchStage).rs = s.rs ∧
    (s.fetchStage).fu = s.fu ∧
    (s.fetchStage).cdbq = s.cdbq ∧
    (s.fetchStage).lsq = s.lsq ∧
    (s.fetchStage).mport = s.mport ∧
    (s.fetchStage).dl = s.dl ∧
    (s.fetchStage).seqNext = s.seqNext ∧
    (s.fetchStage).cycle = s.cycle ∧
    (s.fetchStage).outcome = s.outcome ∧
    (s.fetchStage).dcache = s.dcache ∧
    (s.fetchStage).driver = s.driver := by
  unfold State.fetchStage; (repeat' split) <;> simp

@[simp] theorem State.fetchStage_cfg (s : State) : (s.fetchStage).cfg = s.cfg := (State.fetchStage_frame s).1
@[simp] theorem State.fetchStage_imem (s : State) : (s.fetchStage).imem = s.imem := (State.fetchStage_frame s).2.1
@[simp] theorem State.fetchStage_rf (s : State) : (s.fetchStage).rf = s.rf := (State.fetchStage_frame s).2.2.1
@[simp] theorem State.fetchStage_archPc (s : State) : (s.fetchStage).archPc = s.archPc := (State.fetchStage_frame s).2.2.2.1
@[simp] theorem State.fetchStage_mem (s : State) : (s.fetchStage).mem = s.mem := (State.fetchStage_frame s).2.2.2.2.1
@[simp] theorem State.fetchStage_rob (s : State) : (s.fetchStage).rob = s.rob := (State.fetchStage_frame s).2.2.2.2.2.1
@[simp] theorem State.fetchStage_robHead (s : State) : (s.fetchStage).robHead = s.robHead := (State.fetchStage_frame s).2.2.2.2.2.2.1
@[simp] theorem State.fetchStage_robTail (s : State) : (s.fetchStage).robTail = s.robTail := (State.fetchStage_frame s).2.2.2.2.2.2.2.1
@[simp] theorem State.fetchStage_robCount (s : State) : (s.fetchStage).robCount = s.robCount := (State.fetchStage_frame s).2.2.2.2.2.2.2.2.1
@[simp] theorem State.fetchStage_rs (s : State) : (s.fetchStage).rs = s.rs := (State.fetchStage_frame s).2.2.2.2.2.2.2.2.2.1
@[simp] theorem State.fetchStage_fu (s : State) : (s.fetchStage).fu = s.fu := (State.fetchStage_frame s).2.2.2.2.2.2.2.2.2.2.1
@[simp] theorem State.fetchStage_cdbq (s : State) : (s.fetchStage).cdbq = s.cdbq := (State.fetchStage_frame s).2.2.2.2.2.2.2.2.2.2.2.1
@[simp] theorem State.fetchStage_lsq (s : State) : (s.fetchStage).lsq = s.lsq := (State.fetchStage_frame s).2.2.2.2.2.2.2.2.2.2.2.2.1
@[simp] theorem State.fetchStage_mport (s : State) : (s.fetchStage).mport = s.mport := (State.fetchStage_frame s).2.2.2.2.2.2.2.2.2.2.2.2.2.1
@[simp] theorem State.fetchStage_dl (s : State) : (s.fetchStage).dl = s.dl := (State.fetchStage_frame s).2.2.2.2.2.2.2.2.2.2.2.2.2.2.1
@[simp] theorem State.fetchStage_seqNext (s : State) : (s.fetchStage).seqNext = s.seqNext := (State.fetchStage_frame s).2.2.2.2.2.2.2.2.2.2.2.2.2.2.2.1
@[simp] theorem State.fetchStage_cycle (s : State) : (s.fetchStage).cycle = s.cycle := (State.fetchStage_frame s).2.2.2.2.2.2.2.2.2.2.2.2.2.2.2.2.1
@[simp] theorem State.fetchStage_outcome (s : State) : (s.fetchStage).outcome = s.outcome := (State.fetchStage_frame s).2.2.2.2.2.2.2.2.2.2.2.2.2.2.2.2.2.1
@[simp] theorem State.fetchStage_dcache (s : State) : (s.fetchStage).dcache = s.dcache := (State.fetchStage_frame s).2.2.2.2.2.2.2.2.2.2.2.2.2.2.2.2.2.2.1
@[simp] theorem State.fetchStage_driver (s : State) : (s.fetchStage).driver = s.driver := (State.fetchStage_frame s).2.2.2.2.2.2.2.2.2.2.2.2.2.2.2.2.2.2.2

/-- The fields `State.commitOne` leaves alone. -/
theorem State.commitOne_frame (s : State) (e : RobEntry) :
    (s.commitOne e).cfg = s.cfg ∧
    (s.commitOne e).imem = s.imem ∧
    (s.commitOne e).robTail = s.robTail ∧
    (s.commitOne e).rs = s.rs ∧
    (s.commitOne e).fu = s.fu ∧
    (s.commitOne e).cdbq = s.cdbq ∧
    (s.commitOne e).mport = s.mport ∧
    (s.commitOne e).fb = s.fb ∧
    (s.commitOne e).dl = s.dl ∧
    (s.commitOne e).seqNext = s.seqNext ∧
    (s.commitOne e).cycle = s.cycle ∧
    (s.commitOne e).outcome = s.outcome ∧
    (s.commitOne e).fetch = s.fetch ∧
    (s.commitOne e).icache = s.icache ∧
    (s.commitOne e).driver = s.driver := by
  simp [State.commitOne]

@[simp] theorem State.commitOne_cfg (s : State) (e : RobEntry) : (s.commitOne e).cfg = s.cfg := (State.commitOne_frame s e).1
@[simp] theorem State.commitOne_imem (s : State) (e : RobEntry) : (s.commitOne e).imem = s.imem := (State.commitOne_frame s e).2.1
@[simp] theorem State.commitOne_robTail (s : State) (e : RobEntry) : (s.commitOne e).robTail = s.robTail := (State.commitOne_frame s e).2.2.1
@[simp] theorem State.commitOne_rs (s : State) (e : RobEntry) : (s.commitOne e).rs = s.rs := (State.commitOne_frame s e).2.2.2.1
@[simp] theorem State.commitOne_fu (s : State) (e : RobEntry) : (s.commitOne e).fu = s.fu := (State.commitOne_frame s e).2.2.2.2.1
@[simp] theorem State.commitOne_cdbq (s : State) (e : RobEntry) : (s.commitOne e).cdbq = s.cdbq := (State.commitOne_frame s e).2.2.2.2.2.1
@[simp] theorem State.commitOne_mport (s : State) (e : RobEntry) : (s.commitOne e).mport = s.mport := (State.commitOne_frame s e).2.2.2.2.2.2.1
@[simp] theorem State.commitOne_fb (s : State) (e : RobEntry) : (s.commitOne e).fb = s.fb := (State.commitOne_frame s e).2.2.2.2.2.2.2.1
@[simp] theorem State.commitOne_dl (s : State) (e : RobEntry) : (s.commitOne e).dl = s.dl := (State.commitOne_frame s e).2.2.2.2.2.2.2.2.1
@[simp] theorem State.commitOne_seqNext (s : State) (e : RobEntry) : (s.commitOne e).seqNext = s.seqNext := (State.commitOne_frame s e).2.2.2.2.2.2.2.2.2.1
@[simp] theorem State.commitOne_cycle (s : State) (e : RobEntry) : (s.commitOne e).cycle = s.cycle := (State.commitOne_frame s e).2.2.2.2.2.2.2.2.2.2.1
@[simp] theorem State.commitOne_outcome (s : State) (e : RobEntry) : (s.commitOne e).outcome = s.outcome := (State.commitOne_frame s e).2.2.2.2.2.2.2.2.2.2.2.1
@[simp] theorem State.commitOne_fetch (s : State) (e : RobEntry) : (s.commitOne e).fetch = s.fetch := (State.commitOne_frame s e).2.2.2.2.2.2.2.2.2.2.2.2.1
@[simp] theorem State.commitOne_icache (s : State) (e : RobEntry) : (s.commitOne e).icache = s.icache := (State.commitOne_frame s e).2.2.2.2.2.2.2.2.2.2.2.2.2.1
@[simp] theorem State.commitOne_driver (s : State) (e : RobEntry) : (s.commitOne e).driver = s.driver := (State.commitOne_frame s e).2.2.2.2.2.2.2.2.2.2.2.2.2.2

/-- The fields `commitLoop` leaves alone. -/
theorem commitLoop_frame (n : Nat) (w : List Reg) (s : State) :
    (commitLoop n w s).cfg = s.cfg ∧
    (commitLoop n w s).imem = s.imem ∧
    (commitLoop n w s).seqNext = s.seqNext ∧
    (commitLoop n w s).cycle = s.cycle ∧
    (commitLoop n w s).icache = s.icache ∧
    (commitLoop n w s).driver = s.driver := by
  induction n generalizing w s with
  | zero => simp [commitLoop]
  | succ n ih => unfold commitLoop; (repeat' split) <;> simp [ih]

@[simp] theorem commitLoop_cfg (n : Nat) (w : List Reg) (s : State) : (commitLoop n w s).cfg = s.cfg := (commitLoop_frame n w s).1
@[simp] theorem commitLoop_imem (n : Nat) (w : List Reg) (s : State) : (commitLoop n w s).imem = s.imem := (commitLoop_frame n w s).2.1
@[simp] theorem commitLoop_seqNext (n : Nat) (w : List Reg) (s : State) : (commitLoop n w s).seqNext = s.seqNext := (commitLoop_frame n w s).2.2.1
@[simp] theorem commitLoop_cycle (n : Nat) (w : List Reg) (s : State) : (commitLoop n w s).cycle = s.cycle := (commitLoop_frame n w s).2.2.2.1
@[simp] theorem commitLoop_icache (n : Nat) (w : List Reg) (s : State) : (commitLoop n w s).icache = s.icache := (commitLoop_frame n w s).2.2.2.2.1
@[simp] theorem commitLoop_driver (n : Nat) (w : List Reg) (s : State) : (commitLoop n w s).driver = s.driver := (commitLoop_frame n w s).2.2.2.2.2

/-- The fields `State.commitStage` leaves alone. -/
theorem State.commitStage_frame (s : State) :
    (s.commitStage).cfg = s.cfg ∧
    (s.commitStage).imem = s.imem ∧
    (s.commitStage).seqNext = s.seqNext ∧
    (s.commitStage).cycle = s.cycle ∧
    (s.commitStage).icache = s.icache ∧
    (s.commitStage).driver = s.driver := by
  simp [State.commitStage]

@[simp] theorem State.commitStage_cfg (s : State) : (s.commitStage).cfg = s.cfg := (State.commitStage_frame s).1
@[simp] theorem State.commitStage_imem (s : State) : (s.commitStage).imem = s.imem := (State.commitStage_frame s).2.1
@[simp] theorem State.commitStage_seqNext (s : State) : (s.commitStage).seqNext = s.seqNext := (State.commitStage_frame s).2.2.1
@[simp] theorem State.commitStage_cycle (s : State) : (s.commitStage).cycle = s.cycle := (State.commitStage_frame s).2.2.2.1
@[simp] theorem State.commitStage_icache (s : State) : (s.commitStage).icache = s.icache := (State.commitStage_frame s).2.2.2.2.1
@[simp] theorem State.commitStage_driver (s : State) : (s.commitStage).driver = s.driver := (State.commitStage_frame s).2.2.2.2.2

end Sys2Proof.Machine
end

