-- ==== Sys2Proof/Laws/Memory.lean ====
section
/-!
SUPPORT. Data memory: a write is read back, leaves every other byte alone, and keeps the canonical form.
-/

namespace Sys2Proof.Machine

theorem memWfFrom_mono {lo lo' : Nat} (h : lo' ≤ lo) (m : List Host.Cell) :
    memWfFrom lo m = true → memWfFrom lo' m = true := by
  cases m with
  | nil => simp [memWfFrom]
  | cons c m =>
    obtain ⟨k, b⟩ := c
    simp only [memWfFrom, Bool.and_eq_true, decide_eq_true_eq]
    exact fun hm => ⟨⟨by omega, hm.1.2⟩, hm.2⟩

/-- Below the lowest listed address a canonical memory reads 0. -/
theorem memGet_eq_zero_of_lt {lo a : Nat} {m : List Host.Cell} (h : memWfFrom lo m = true) (ha : a < lo) :
    memGet m a = 0#8 := by
  induction m generalizing lo with
  | nil => rfl
  | cons c m ih =>
    obtain ⟨k, b⟩ := c
    simp only [memWfFrom, Bool.and_eq_true, decide_eq_true_eq] at h
    rw [memGet, if_neg (by omega)]
    exact ih h.2 (by omega)

theorem memWfFrom_memSet {lo : Nat} {m : List Host.Cell} (h : memWfFrom lo m = true) {a : Nat} (ha : lo ≤ a)
    (v : Byte) : memWfFrom lo (memSet m a v) = true := by
  induction m generalizing lo with
  | nil => by_cases hv : v = 0#8 <;> simp [memSet, memWfFrom, hv, ha]
  | cons c m ih =>
    obtain ⟨k, b⟩ := c
    simp only [memWfFrom, Bool.and_eq_true, decide_eq_true_eq] at h
    obtain ⟨⟨hk, hb⟩, hm⟩ := h
    unfold memSet
    split
    · split <;> simp_all [memWfFrom]
    · split
      · subst a
        split
        · exact memWfFrom_mono (by omega) m hm
        · simp_all [memWfFrom]
      · simp only [memWfFrom, Bool.and_eq_true, decide_eq_true_eq]
        exact ⟨⟨hk, hb⟩, ih hm (by omega)⟩

/-- Every byte write keeps the canonical form. -/
theorem memWf_memSet {m : List Host.Cell} (h : memWf m = true) (a : Nat) (v : Byte) :
    memWf (memSet m a v) = true := memWfFrom_memSet h (Nat.zero_le a) v

/-- Every word write keeps the canonical form. -/
theorem memWf_memWriteWord {m : List Host.Cell} (h : memWf m = true) (o : ByteOrder) (a : Nat) (v : Word) :
    memWf (memWriteWord o m a v) = true := by
  unfold memWriteWord
  exact memWf_memSet (memWf_memSet (memWf_memSet (memWf_memSet h _ _) _ _) _ _) _ _

/-- The reset memory is canonical. -/
theorem memWf_nil : memWf [] = true := rfl

theorem memGet_memSet_from {lo : Nat} {m : List Host.Cell} (h : memWfFrom lo m = true) (a x : Nat) (v : Byte) :
    memGet (memSet m a v) x = if x = a then v else memGet m x := by
  induction m generalizing lo with
  | nil => by_cases hv : v = 0#8 <;> by_cases hx : x = a <;> simp [memSet, memGet, hv, hx]
  | cons c m ih =>
    obtain ⟨k, b⟩ := c
    simp only [memWfFrom, Bool.and_eq_true, decide_eq_true_eq] at h
    obtain ⟨⟨_, _⟩, hm⟩ := h
    unfold memSet
    split
    · split
      · subst v
        by_cases hx : x = a
        · rw [if_pos hx, memGet, if_neg (by omega)]
          exact memGet_eq_zero_of_lt hm (by omega)
        · rw [if_neg hx]
      · rw [memGet]
    · split
      · subst a
        split
        · subst v
          by_cases hx : x = k
          · rw [if_pos hx]
            exact memGet_eq_zero_of_lt hm (by omega)
          · simp [memGet, hx]
        · by_cases hx : x = k <;> simp [memGet, hx]
      · simp only [memGet]
        by_cases hx : x = k
        · simp only [if_pos hx]
          rw [if_neg (by omega)]
        · simp only [if_neg hx]
          exact ih hm

end Sys2Proof.Machine
end

