-- ==== Sys2Proof/Laws/Ops.lean ====
section
/-!
SUPPORT. One lemma for each shared operation that says all it does: register reads and writes, word accesses, sequential
retirement and the taking of an exception.
-/

namespace Sys2Proof.Machine

/-! ### Registers -/

theorem State.regEntry_setRegEntry (s : State) (i j : Reg) (e : RegEntry) :
    (s.setRegEntry i e).regEntry j = if j = i then e else s.regEntry j := by
  simp only [State.regEntry, State.setRegEntry, Vector.getElem_set, BitVec.toNat_inj, eq_comm (a := i)]

theorem State.regEntry_writeReg (s : State) (i j : Reg) (v : Word) :
    (s.writeReg i v).regEntry j = if j = i ∧ i ≠ 0 then { s.regEntry j with value := v } else s.regEntry j := by
  unfold State.writeReg
  by_cases hi : i = 0
  · simp [hi]
  · rw [if_neg hi, State.regEntry_setRegEntry]
    by_cases hj : j = i
    · subst hj
      rw [if_pos rfl, if_pos ⟨rfl, hi⟩]
    · simp [hj]

theorem State.regEntry_setRename (s : State) (i j : Reg) (b : Bool) (t : Nat) :
    (s.setRename i b t).regEntry j =
      if j = i ∧ i ≠ 0 then { s.regEntry j with ready := b, tag := t } else s.regEntry j := by
  unfold State.setRename
  by_cases hi : i = 0
  · simp [hi]
  · rw [if_neg hi, State.regEntry_setRegEntry]
    by_cases hj : j = i
    · subst hj
      rw [if_pos rfl, if_pos ⟨rfl, hi⟩]
    · simp [hj]

@[simp] theorem State.reg_zero (s : State) : s.reg 0 = 0 := by simp [State.reg]

/-- A register written reads back, unless it is register 0; every other register is as before. -/
theorem State.reg_writeReg (s : State) (i r : Reg) (v : Word) :
    (s.writeReg i v).reg r = if r = i ∧ i ≠ 0 then v else s.reg r := by
  unfold State.reg
  by_cases hr : r = 0
  · subst hr
    by_cases hi : (0 : Reg) = i
    · subst hi; simp
    · rw [if_pos rfl, if_neg (fun h => hi h.1)]
      rfl
  · rw [if_neg hr, if_neg hr, State.regEntry_writeReg]
    split <;> rfl

/-- A rename moves no value. -/
theorem State.reg_setRename (s : State) (i r : Reg) (b : Bool) (t : Nat) : (s.setRename i b t).reg r = s.reg r := by
  unfold State.reg
  rw [State.regEntry_setRename]
  split
  · rfl
  · split <;> rfl

/-- Registers depend on the register file alone. -/
theorem State.reg_congr {s t : State} (h : t.rf = s.rf) (r : Reg) : t.reg r = s.reg r := by
  simp [State.reg, State.regEntry, h]

theorem State.regEntry_congr {s t : State} (h : t.rf = s.rf) (r : Reg) : t.regEntry r = s.regEntry r := by
  simp [State.regEntry, h]

/-- Bytes depend on memory alone. -/
theorem State.readByte_congr {s t : State} (h : t.mem = s.mem) (a : Nat) : t.readByte a = s.readByte a := by
  simp [State.readByte, h]

/-! ### Memory -/

/-- A word is written as four bytes, and every other byte is as before. -/
theorem memGet_memWriteWord {m : List Host.Cell} (h : memWf m = true) (o : ByteOrder) (a x : Nat) (v : Word) :
    memGet (memWriteWord o m a v) x =
      if x = a + 3 then byteOf v (lane o 3)
      else if x = a + 2 then byteOf v (lane o 2)
      else if x = a + 1 then byteOf v (lane o 1)
      else if x = a then byteOf v (lane o 0)
      else memGet m x := by
  have h0 := memWf_memSet h a (byteOf v (lane o 0))
  have h1 := memWf_memSet h0 (a + 1) (byteOf v (lane o 1))
  have h2 := memWf_memSet h1 (a + 2) (byteOf v (lane o 2))
  unfold memWriteWord
  rw [memGet_memSet_from h2, memGet_memSet_from h1, memGet_memSet_from h0, memGet_memSet_from h]

/-! ### Sequential retirement and exceptions -/

@[simp] theorem State.regEntry_surface (s : State) (c : Cause) (pc : Word) (q : Nat) (a : Word) (r : Reg) :
    (s.surface c pc q a).regEntry r = s.regEntry r := rfl

@[simp] theorem State.regEntry_writeWord (s : State) (ea v : Word) (r : Reg) :
    (s.writeWord ea v).regEntry r = s.regEntry r := rfl

@[simp] theorem State.reg_writeWord (s : State) (ea v : Word) (r : Reg) : (s.writeWord ea v).reg r = s.reg r := rfl

theorem State.regEntry_retireSequential (s : State) (rd : Reg) (v next : Word) (r : Reg) :
    (s.retireSequential rd v next).regEntry r = (s.writeReg rd v).regEntry r := rfl

theorem State.reg_retireSequential (s : State) (rd : Reg) (v next : Word) (r : Reg) :
    (s.retireSequential rd v next).reg r = if r = rd ∧ rd ≠ 0 then v else s.reg r := State.reg_writeReg s rd r v

/-- The frame of a sequential retirement. -/
theorem State.sameEngine_retireSequential (s : State) (rd : Reg) (v next : Word) :
    SameEngine s (s.retireSequential rd v next) := by
  constructor <;> try simp
  · intro i; rw [State.regEntry_retireSequential, State.regEntry_writeReg]; split <;> rfl
  · intro i; rw [State.regEntry_retireSequential, State.regEntry_writeReg]; split <;> rfl

/-- The frame of a fault. -/
theorem State.sameEngine_raiseSequential (s : State) (c : Cause) (addr : Word) :
    SameEngine s (s.raiseSequential c addr) := by
  constructor <;> first | rfl | exact fun _ => rfl | exact ⟨_, rfl⟩

/-- What `finishSequential` answers: the exception's fault state, or the retired state. -/
theorem State.finishSequential_eq (s : State) (rd : Reg) (r : ExecResult) :
    s.finishSequential rd r =
      .next (match r.exception with
        | some c => s.raiseSequential c r.excAddr
        | none => s.retireSequential rd r.value r.nextPc) := by
  unfold State.finishSequential
  cases r.exception <;> rfl

@[simp] theorem State.finishSequential_valueResult (s : State) (rd : Reg) (v pc : Word) :
    s.finishSequential rd (valueResult v pc) = .next (s.retireSequential rd v (nextSequential pc)) := rfl

@[simp] theorem State.finishSequential_controlResult (s : State) (rd : Reg) (v next : Word) (b : Bool) :
    s.finishSequential rd (controlResult v b next) = .next (s.retireSequential rd v next) := rfl

@[simp] theorem State.finishSequential_raisedResult (s : State) (rd : Reg) (c : Cause) (pc : Word) :
    s.finishSequential rd (raisedResult c pc) = .next (s.raiseSequential c 0) := rfl

theorem State.finishSequential_branchResult (s : State) (b : Bool) (imm pc : Word) :
    s.finishSequential 0 (branchResult b imm pc) =
      .next (s.retireSequential 0 0 (if b then imm else nextSequential pc)) := rfl

/-! ### Values -/

/-- The exact sum, narrowed, is the wrapping sum. -/
theorem ofInt_add (a b : Word) : BitVec.ofInt 32 (a.toInt + b.toInt) = a + b := by
  rw [BitVec.ofInt_add, BitVec.ofInt_toInt, BitVec.ofInt_toInt]

theorem ofInt_sub (a b : Word) : BitVec.ofInt 32 (a.toInt - b.toInt) = a - b := by
  rw [Int.sub_eq_add_neg, BitVec.ofInt_add, BitVec.ofInt_neg, BitVec.ofInt_toInt, BitVec.ofInt_toInt,
    ← BitVec.sub_eq_add_neg]

theorem ofInt_mul (a b : Word) : BitVec.ofInt 32 (a.toInt * b.toInt) = a * b := by
  rw [BitVec.ofInt_mul, BitVec.ofInt_toInt, BitVec.ofInt_toInt]

/-- The effective address is the wrapping sum. -/
theorem effectiveAddress_eq (b d : Word) : effectiveAddress b d = b + d := by
  unfold effectiveAddress
  rw [BitVec.ofInt_add, BitVec.ofInt_toInt, BitVec.ofInt_natCast, BitVec.ofNat_toNat, BitVec.setWidth_eq]

theorem shiftAmount_eq (imm : Word) : shiftAmount imm = imm.toNat % 32 := by
  simp [shiftAmount, BitVec.extractLsb'_toNat]

/-- The two low bits say whether an address is a multiple of 4. -/
theorem lowBits_eq_zero (ea : Word) : ea.extractLsb' 0 2 = 0#2 ↔ ea.toNat % 4 = 0 := by
  rw [← BitVec.toNat_inj]
  simp [BitVec.extractLsb'_toNat]

/-- Which exception an access raises: alignment is checked before bounds. -/
theorem addressFault_eq (m : Nat) (ea : Word) :
    addressFault m ea = if ea.toNat % 4 ≠ 0 then some .misalignedAccess
      else if m < ea.toNat + 4 then some .memoryFault else none := by
  unfold addressFault
  simp only [ne_eq, lowBits_eq_zero]

/-- The result of an add or subtract: it raises exactly if overflow traps and the exact result does not fit. -/
theorem checkedResult_eq (traps : Bool) (p : Int) (pc : Word) :
    checkedResult traps p pc =
      if traps = true ∧ (p < -2 ^ 31 ∨ 2 ^ 31 - 1 < p) then raisedResult .arithmeticOverflow pc
      else valueResult (BitVec.ofInt 32 p) pc := by
  unfold checkedResult signedOverflow
  norm_num

end Sys2Proof.Machine
end

