-- ==== Sys2Proof/Laws/Loader.lean ====
section
/-!
SUPPORT. The placement of a data section: one lemma for each placing operation that says all it does to the image.
-/

namespace Sys2Proof.Machine

/-- Bytes placed: the canonical form is kept, the bytes are at their addresses, every other byte is as before. -/
theorem placeBytes_spec (bs : List Byte) (p : Placement) (h : memWf p.image = true) :
    memWf (placeBytes bs p).image = true ∧ (placeBytes bs p).next = p.next + bs.length ∧
    (∀ x, memGet (placeBytes bs p).image x =
      if x < p.next ∨ p.next + bs.length ≤ x then memGet p.image x else bs.getD (x - p.next) 0) := by
  induction bs generalizing p with
  | nil => simp [placeBytes, h]
  | cons b bs ih =>
    have h1 := memWf_memSet h p.next b
    obtain ⟨i1, i2, i3⟩ := ih ⟨p.next + 1, memSet p.image p.next b⟩ h1
    refine ⟨i1, by simp [placeBytes, i2]; omega, ?_⟩
    intro x
    show memGet (placeBytes bs ⟨p.next + 1, memSet p.image p.next b⟩).image x = _
    rw [i3, memGet_memSet_from h]
    simp only [List.length_cons]
    by_cases hx : x = p.next
    · subst hx; simp
    · rw [if_neg hx]
      by_cases h2 : x < p.next
      · rw [if_pos (by omega), if_pos (by omega)]
      · by_cases h3 : p.next + (bs.length + 1) ≤ x
        · rw [if_pos (by omega), if_pos (by omega)]
        · rw [if_neg (by omega), if_neg (by omega)]
          obtain ⟨k, rfl⟩ : ∃ k, x = p.next + 1 + k := ⟨x - p.next - 1, by omega⟩
          rw [show p.next + 1 + k - (p.next + 1) = k by omega, show p.next + 1 + k - p.next = k + 1 by omega]
          simp

/-- Words placed: the canonical form is kept, four bytes are taken for each, every byte outside them is as before. -/
theorem placeWords_spec (o : ByteOrder) (ws : List Word) (p : Placement) (h : memWf p.image = true) :
    memWf (placeWords o ws p).image = true ∧ (placeWords o ws p).next = p.next + 4 * ws.length ∧
    (∀ x, (x < p.next ∨ p.next + 4 * ws.length ≤ x) → memGet (placeWords o ws p).image x = memGet p.image x) := by
  induction ws generalizing p with
  | nil => simp [placeWords, h]
  | cons w ws ih =>
    obtain ⟨i1, i2, i3⟩ := ih ⟨p.next + 4, memWriteWord o p.image p.next w⟩ (memWf_memWriteWord h o p.next w)
    refine ⟨i1, by simp [placeWords, i2]; omega, fun x hx => ?_⟩
    show memGet (placeWords o ws ⟨p.next + 4, memWriteWord o p.image p.next w⟩).image x = _
    simp only [List.length_cons] at hx
    rw [i3 x (by simp; omega)]
    simp only
    rw [memGet_memWriteWord h, if_neg (by omega), if_neg (by omega), if_neg (by omega), if_neg (by omega)]

theorem le_alignUp4 (n : Nat) : n ≤ alignUp4 n := by unfold alignUp4; omega

/-- One datum placed: the canonical form is kept, the place moves on as `dataEnd` says, every byte outside the datum's is as
before. -/
theorem placeItem_spec (o : ByteOrder) (d : DataItem) (p : Placement) (h : memWf p.image = true)
    (ds : List DataItem) :
    memWf (placeItem o d p).image = true ∧ p.next ≤ (placeItem o d p).next ∧
    dataEnd p.next (d :: ds) = dataEnd (placeItem o d p).next ds ∧
    (∀ x, (x < p.next ∨ (placeItem o d p).next ≤ x) → memGet (placeItem o d p).image x = memGet p.image x) := by
  cases d with
  | word ws =>
    cases ws with
    | nil => exact ⟨h, le_refl _, rfl, fun _ _ => rfl⟩
    | cons w ws =>
      obtain ⟨i1, i2, i3⟩ := placeWords_spec o (w :: ws) { p with next := alignUp4 p.next } h
      have := le_alignUp4 p.next
      refine ⟨i1, ?_, ?_, ?_⟩
      · simp only [placeItem]; rw [i2]; simp; omega
      · simp only [placeItem]; rw [i2]; rfl
      · intro x hx; simp only [placeItem] at hx ⊢; rw [i2] at hx; exact i3 x (by simp at hx ⊢; omega)
  | space n =>
    obtain ⟨i1, i2, i3⟩ := placeBytes_spec (List.replicate n 0) p h
    refine ⟨i1, ?_, ?_, ?_⟩
    · simp only [placeItem]; rw [i2]; omega
    · simp only [placeItem]; rw [i2]; simp [dataEnd]
    · intro x hx; simp only [placeItem] at hx ⊢; rw [i2] at hx; rw [i3, if_pos hx]
  | asciiz bs =>
    obtain ⟨i1, i2, i3⟩ := placeBytes_spec (bs ++ [0]) p h
    refine ⟨i1, ?_, ?_, ?_⟩
    · simp only [placeItem]; rw [i2]; omega
    · simp only [placeItem]; rw [i2]; simp [dataEnd, Nat.add_assoc]
    · intro x hx; simp only [placeItem] at hx ⊢; rw [i2] at hx; rw [i3, if_pos hx]

/-- A data section placed: it ends at `dataEnd`, and every byte outside it is as before. -/
theorem placeItems_spec (o : ByteOrder) (ds : List DataItem) (p : Placement) (h : memWf p.image = true) :
    memWf (placeItems o ds p).image = true ∧ (placeItems o ds p).next = dataEnd p.next ds ∧
    p.next ≤ (placeItems o ds p).next ∧
    (∀ x, (x < p.next ∨ (placeItems o ds p).next ≤ x) → memGet (placeItems o ds p).image x = memGet p.image x) := by
  induction ds generalizing p with
  | nil => exact ⟨h, rfl, le_refl _, fun _ _ => rfl⟩
  | cons d ds ih =>
    obtain ⟨a1, a2, a3, a4⟩ := placeItem_spec o d p h ds
    obtain ⟨b1, b2, b3, b4⟩ := ih (placeItem o d p) a1
    refine ⟨b1, by rw [a3]; exact b2, le_trans a2 b3, ?_⟩
    intro x hx
    show memGet (placeItems o ds (placeItem o d p)).image x = _
    have hx' : x < p.next ∨ (placeItems o ds (placeItem o d p)).next ≤ x := hx
    rw [b4 x (by omega), a4 x (by omega)]

theorem placeItems_append (o : ByteOrder) (a b : List DataItem) (p : Placement) :
    placeItems o (a ++ b) p = placeItems o b (placeItems o a p) := by
  induction a generalizing p with
  | nil => rfl
  | cons d ds ih => exact ih _

end Sys2Proof.Machine
end

