-- ==== Sys2Proof/Laws/PerInstr.lean ====
section
/-!
SUPPORT. Statements made for each instruction: the fields of its word are those of its record, and a field its format does
not use is 0 (R73, R74).
-/

namespace Sys2Proof.Laws

open Sys2Proof.Machine (readsRs1 readsRs2 writesRd)

theorem fields_of_word (r : InstrRecord) :
    wordOp r.word = r.op.number ∧ wordRd r.word = r.rd ∧ wordRs1 r.word = r.rs1 ∧ wordRs2 r.word = r.rs2 ∧
      wordImm r.word = r.imm ∧ r.word.extractLsb' 32 9 = 0#9 :=
  ⟨wordOp_word r, wordRd_word r, wordRs1_word r, wordRs2_word r, wordImm_word r, reserved_word r⟩

/-- The word of `i` has the fields of its record, its reserved bits are 0, and the fields its format does not use are 0
(R73, R74). -/
def EncodedFields.Statement (i : Instr) : Prop :=
  wordOp (encode i) = i.record.op.number ∧ wordRd (encode i) = i.record.rd ∧ wordRs1 (encode i) = i.record.rs1 ∧
    wordRs2 (encode i) = i.record.rs2 ∧ wordImm (encode i) = i.record.imm ∧ (encode i).extractLsb' 32 9 = 0#9 ∧
    (writesRd i.record.op = false → wordRd (encode i) = 0) ∧
    (readsRs1 i.record.op = false → wordRs1 (encode i) = 0) ∧
    (readsRs2 i.record.op = false → wordRs2 (encode i) = 0)

theorem encodedFields_of_record (i : Instr)
    (hd : writesRd i.record.op = false → i.record.rd = 0)
    (h1 : readsRs1 i.record.op = false → i.record.rs1 = 0)
    (h2 : readsRs2 i.record.op = false → i.record.rs2 = 0) : EncodedFields.Statement i := by
  obtain ⟨a, b, c, d, e, f⟩ := fields_of_word i.record
  exact ⟨a, b, c, d, e, f, fun h => b.trans (hd h), fun h => c.trans (h1 h), fun h => d.trans (h2 h)⟩

theorem EncodedFields.add (rd rs1 rs2 : Reg) : EncodedFields.Statement (.add rd rs1 rs2) :=
  encodedFields_of_record _ (by simp [Instr.record, writesRd]) (by simp [Instr.record, readsRs1])
    (by simp [Instr.record, readsRs2])

theorem EncodedFields.addi (rd rs1 : Reg) (imm : Word) : EncodedFields.Statement (.addi rd rs1 imm) :=
  encodedFields_of_record _ (by simp [Instr.record, writesRd]) (by simp [Instr.record, readsRs1])
    (by simp [Instr.record, readsRs2])

theorem EncodedFields.sub (rd rs1 rs2 : Reg) : EncodedFields.Statement (.sub rd rs1 rs2) :=
  encodedFields_of_record _ (by simp [Instr.record, writesRd]) (by simp [Instr.record, readsRs1])
    (by simp [Instr.record, readsRs2])

theorem EncodedFields.mul (rd rs1 rs2 : Reg) : EncodedFields.Statement (.mul rd rs1 rs2) :=
  encodedFields_of_record _ (by simp [Instr.record, writesRd]) (by simp [Instr.record, readsRs1])
    (by simp [Instr.record, readsRs2])

theorem EncodedFields.and (rd rs1 rs2 : Reg) : EncodedFields.Statement (.and rd rs1 rs2) :=
  encodedFields_of_record _ (by simp [Instr.record, writesRd]) (by simp [Instr.record, readsRs1])
    (by simp [Instr.record, readsRs2])

theorem EncodedFields.or (rd rs1 rs2 : Reg) : EncodedFields.Statement (.or rd rs1 rs2) :=
  encodedFields_of_record _ (by simp [Instr.record, writesRd]) (by simp [Instr.record, readsRs1])
    (by simp [Instr.record, readsRs2])

theorem EncodedFields.xor (rd rs1 rs2 : Reg) : EncodedFields.Statement (.xor rd rs1 rs2) :=
  encodedFields_of_record _ (by simp [Instr.record, writesRd]) (by simp [Instr.record, readsRs1])
    (by simp [Instr.record, readsRs2])

theorem EncodedFields.sll (rd rs1 : Reg) (imm : Word) : EncodedFields.Statement (.sll rd rs1 imm) :=
  encodedFields_of_record _ (by simp [Instr.record, writesRd]) (by simp [Instr.record, readsRs1])
    (by simp [Instr.record, readsRs2])

theorem EncodedFields.srl (rd rs1 : Reg) (imm : Word) : EncodedFields.Statement (.srl rd rs1 imm) :=
  encodedFields_of_record _ (by simp [Instr.record, writesRd]) (by simp [Instr.record, readsRs1])
    (by simp [Instr.record, readsRs2])

theorem EncodedFields.slt (rd rs1 rs2 : Reg) : EncodedFields.Statement (.slt rd rs1 rs2) :=
  encodedFields_of_record _ (by simp [Instr.record, writesRd]) (by simp [Instr.record, readsRs1])
    (by simp [Instr.record, readsRs2])

theorem EncodedFields.li (rd : Reg) (imm : Word) : EncodedFields.Statement (.li rd imm) :=
  encodedFields_of_record _ (by simp [Instr.record, writesRd]) (by simp [Instr.record, readsRs1])
    (by simp [Instr.record, readsRs2])

theorem EncodedFields.la (rd : Reg) (imm : Word) : EncodedFields.Statement (.la rd imm) :=
  encodedFields_of_record _ (by simp [Instr.record, writesRd]) (by simp [Instr.record, readsRs1])
    (by simp [Instr.record, readsRs2])

theorem EncodedFields.lw (rd rs1 : Reg) (imm : Word) : EncodedFields.Statement (.lw rd rs1 imm) :=
  encodedFields_of_record _ (by simp [Instr.record, writesRd]) (by simp [Instr.record, readsRs1])
    (by simp [Instr.record, readsRs2])

theorem EncodedFields.sw (rs1 rs2 : Reg) (imm : Word) : EncodedFields.Statement (.sw rs1 rs2 imm) :=
  encodedFields_of_record _ (by simp [Instr.record, writesRd]) (by simp [Instr.record, readsRs1])
    (by simp [Instr.record, readsRs2])

theorem EncodedFields.beq (rs1 rs2 : Reg) (imm : Word) : EncodedFields.Statement (.beq rs1 rs2 imm) :=
  encodedFields_of_record _ (by simp [Instr.record, writesRd]) (by simp [Instr.record, readsRs1])
    (by simp [Instr.record, readsRs2])

theorem EncodedFields.bne (rs1 rs2 : Reg) (imm : Word) : EncodedFields.Statement (.bne rs1 rs2 imm) :=
  encodedFields_of_record _ (by simp [Instr.record, writesRd]) (by simp [Instr.record, readsRs1])
    (by simp [Instr.record, readsRs2])

theorem EncodedFields.bgt (rs1 rs2 : Reg) (imm : Word) : EncodedFields.Statement (.bgt rs1 rs2 imm) :=
  encodedFields_of_record _ (by simp [Instr.record, writesRd]) (by simp [Instr.record, readsRs1])
    (by simp [Instr.record, readsRs2])

theorem EncodedFields.bge (rs1 rs2 : Reg) (imm : Word) : EncodedFields.Statement (.bge rs1 rs2 imm) :=
  encodedFields_of_record _ (by simp [Instr.record, writesRd]) (by simp [Instr.record, readsRs1])
    (by simp [Instr.record, readsRs2])

theorem EncodedFields.ble (rs1 rs2 : Reg) (imm : Word) : EncodedFields.Statement (.ble rs1 rs2 imm) :=
  encodedFields_of_record _ (by simp [Instr.record, writesRd]) (by simp [Instr.record, readsRs1])
    (by simp [Instr.record, readsRs2])

theorem EncodedFields.blt (rs1 rs2 : Reg) (imm : Word) : EncodedFields.Statement (.blt rs1 rs2 imm) :=
  encodedFields_of_record _ (by simp [Instr.record, writesRd]) (by simp [Instr.record, readsRs1])
    (by simp [Instr.record, readsRs2])

theorem EncodedFields.j (imm : Word) : EncodedFields.Statement (.j imm) :=
  encodedFields_of_record _ (by simp [Instr.record, writesRd]) (by simp [Instr.record, readsRs1])
    (by simp [Instr.record, readsRs2])

theorem EncodedFields.jal (imm : Word) : EncodedFields.Statement (.jal imm) :=
  encodedFields_of_record _ (by simp [Instr.record, writesRd]) (by simp [Instr.record, readsRs1])
    (by simp [Instr.record, readsRs2])

theorem EncodedFields.jr (rs1 : Reg) : EncodedFields.Statement (.jr rs1) :=
  encodedFields_of_record _ (by simp [Instr.record, writesRd]) (by simp [Instr.record, readsRs1])
    (by simp [Instr.record, readsRs2])

theorem EncodedFields.nop : EncodedFields.Statement (.nop) :=
  encodedFields_of_record _ (by simp [Instr.record, writesRd]) (by simp [Instr.record, readsRs1])
    (by simp [Instr.record, readsRs2])

theorem EncodedFields.syscall : EncodedFields.Statement (.syscall) :=
  encodedFields_of_record _ (by simp [Instr.record, writesRd]) (by simp [Instr.record, readsRs1])
    (by simp [Instr.record, readsRs2])

theorem EncodedFields.halt : EncodedFields.Statement (.halt) :=
  encodedFields_of_record _ (by simp [Instr.record, writesRd]) (by simp [Instr.record, readsRs1])
    (by simp [Instr.record, readsRs2])

end Sys2Proof.Laws
end

