-- ==== Sys2Proof/Laws/Pipeline.lean ====
section
/-!
SUPPORT. What the operations of the stages do: one lemma for each, so that a proof about a tick cites it and never unfolds
the operation.
-/

namespace Sys2Proof.Machine

/-! ### Commit -/

/-- When the commit loop retires `e`: it is the head, completed, without an exception, its register is not yet written in
this tick, and a `syscall` asks for the exit. -/
theorem headAction_retire {s : State} {w : List Reg} {e : RobEntry} (h : s.headAction w = .retire e) :
    e = s.headEntry ∧ s.robCount ≠ 0 ∧ e.completed = true ∧ e.exception = none ∧ e.writtenTwice w = false ∧
      (e.op = some .syscall → exitRequested (s.reg 2) = true) := by
  unfold State.headAction at h
  split at h
  · cases h
  · rename_i hc
    split at h
    · cases h
    · rename_i hd
      split at h
      · cases h
      · rename_i he
        split at h
        · cases h
        · rename_i hw
          split at h
          · cases h
          · rename_i hs
            obtain rfl := HeadAction.retire.inj h
            exact ⟨rfl, hc, by simpa using hd, he, by simpa using hw, fun ho => by simpa [ho] using hs⟩

/-- When the commit loop waits: there is no head, it is not completed, or this tick has already written its register. -/
theorem headAction_wait {s : State} {w : List Reg} (h : s.headAction w = .wait) :
    s.robCount = 0 ∨ s.headEntry.completed = false ∨ s.headEntry.writtenTwice w = true := by
  unfold State.headAction at h
  split at h
  · exact .inl ‹_›
  · split at h
    · exact .inr (.inl ‹_›)
    · split at h
      · cases h
      · split at h
        · exact .inr (.inr ‹_›)
        · split at h <;> cases h

/-- When the commit loop surfaces a fault: the head carries it, or is a `syscall` that does not ask for the exit. -/
theorem headAction_surface {s : State} {w : List Reg} {e : RobEntry} {c : Cause} {a : Word}
    (h : s.headAction w = .surface e c a) :
    e = s.headEntry ∧ (e.exception = some c ∧ a = e.excAddr ∨
      e.op = some .syscall ∧ exitRequested (s.reg 2) = false ∧ c = .unsupportedSyscall ∧ a = 0) := by
  unfold State.headAction at h
  split at h
  · cases h
  · split at h
    · cases h
    · split at h
      · rename_i he
        cases h
        exact ⟨rfl, .inl ⟨he, rfl⟩⟩
      · split at h
        · cases h
        · split at h
          · rename_i hs
            cases h
            exact ⟨rfl, .inr ⟨hs.1, hs.2, rfl, rfl⟩⟩
          · cases h

@[simp] theorem State.commitAll_nil (s : State) : s.commitAll [] = s := rfl

@[simp] theorem State.commitAll_cons (s : State) (e : RobEntry) (l : List RobEntry) :
    s.commitAll (e :: l) = (s.commitOne e).commitAll l := rfl

/-- The register part of a commit: the destination gets the value, and is ready again if its tag named the entry. -/
theorem State.regEntry_commitRegister (s : State) (h : Nat) (e : RobEntry) (r : Reg) :
    (s.commitRegister h e).regEntry r =
      if e.dest = some r ∧ r ≠ 0 then
        ⟨e.value, (s.regEntry r).ready || (s.regEntry r).tag == h, (s.regEntry r).tag⟩
      else s.regEntry r := by
  unfold State.commitRegister
  cases hd : e.dest with
  | none => simp
  | some d =>
    dsimp only
    have hw : ∀ q, (s.writeReg d e.value).regEntry q = _ := fun q => State.regEntry_writeReg s d q e.value
    by_cases hr : d = r ∧ r ≠ 0
    · obtain ⟨rfl, h0⟩ := hr
      have hd' := hw d
      rw [if_pos ⟨rfl, h0⟩] at hd'
      rw [if_pos (⟨rfl, h0⟩ : some d = some d ∧ d ≠ 0)]
      split
      · rename_i hc
        rw [hd'] at hc
        rw [State.regEntry_setRename, if_pos ⟨rfl, h0⟩, hd']
        have hct : (s.regEntry d).tag = h := hc.2
        simp [hct]
      · rename_i hc
        rw [hd'] at hc
        rw [hd']
        cases hready : (s.regEntry d).ready <;> simp_all
    · have hd' := hw r
      rw [if_neg (fun c : r = d ∧ d ≠ 0 => hr ⟨c.1.symm, c.1 ▸ c.2⟩)] at hd'
      rw [if_neg (fun c : some d = some r ∧ r ≠ 0 => hr ⟨Option.some.inj c.1, c.2⟩)]
      split
      · rw [State.regEntry_setRename, if_neg (fun c : r = d ∧ d ≠ 0 => hr ⟨c.1.symm, c.1 ▸ c.2⟩), hd']
      · exact hd'

theorem State.regEntry_commitOne (s : State) (e : RobEntry) (r : Reg) :
    (s.commitOne e).regEntry r = (s.commitRegister s.robHead e).regEntry r :=
  State.regEntry_congr (by simp [State.commitOne]) r

theorem State.commitOne_mem (s : State) (e : RobEntry) :
    (s.commitOne e).mem =
      if e.isStore then memWriteWord s.cfg.byteOrder s.mem e.stAddr.toNat e.stValue else s.mem := by
  simp only [State.commitOne, State.commitFree_mem, State.commitControl_mem, State.commitLsq_mem, State.commitStore]
  split <;> simp

/-- A commit accesses the D-cache for a store alone, by a write. -/
theorem State.commitOne_dcache (s : State) (e : RobEntry) :
    (s.commitOne e).dcache =
      if e.isStore then (cacheAccess s.cfg.dcache true s.dcache e.stAddr.toNat).2 else s.dcache := by
  have h : (s.commitRegister s.robHead e).dcache = s.dcache ∧ (s.commitRegister s.robHead e).cfg = s.cfg := by
    unfold State.commitRegister
    split
    · exact ⟨rfl, rfl⟩
    · dsimp only
      split <;> simp
  simp only [State.commitOne, State.commitFree_dcache, State.commitControl_dcache, State.commitLsq_dcache,
    State.commitStore]
  split
  · show (cacheAccess (s.commitRegister s.robHead e).cfg.dcache true (s.commitRegister s.robHead e).dcache _).2 = _
    rw [h.1, h.2]
  · exact h.1

theorem State.commitOne_lsq (s : State) (e : RobEntry) :
    (s.commitOne e).lsq = if e.hasLsq then s.lsq.tail else s.lsq := by
  simp only [State.commitOne, State.commitFree_lsq, State.commitControl_lsq, State.commitLsq]
  split <;> simp

theorem State.commitOne_robHead (s : State) (e : RobEntry) :
    (s.commitOne e).robHead = (s.robHead + 1) % s.cfg.robCap := by simp [State.commitOne]

theorem State.commitOne_robCount (s : State) (e : RobEntry) : (s.commitOne e).robCount = s.robCount - 1 := by
  simp [State.commitOne]

theorem State.commitOne_archPc (s : State) (e : RobEntry) : (s.commitOne e).archPc = e.actualNextPc := rfl

theorem State.commitOne_rob (s : State) (e : RobEntry) :
    (s.commitOne e).rob = updateAt (fun x => { x with valid := false }) s.rob s.robHead := by simp [State.commitOne]

@[simp] theorem mapRegisters_getElem {α β : Type} (f : α → β) (v : Vector α 32) (i : Nat) (h : i < 32) :
    (mapRegisters f v)[i] = f v[i] := by
  simp [mapRegisters]

/-- After a squash every register is ready and keeps its value. -/
theorem State.regEntry_squashAfter (s : State) (e : RobEntry) (r : Reg) :
    (s.squashAfter e).regEntry r = { s.regEntry r with ready := true } := by
  simp [State.regEntry]

/-! ### The memory stage -/

/-- A load access: forwarded data in one tick and no other effect, or a D-cache access and the word in memory. -/
theorem State.loadAccess_forward (s : State) (a : Word) (st : LsqEntry) :
    s.loadAccess a (some st) = (st.data, 1, s) := rfl

theorem State.loadAccess_value (s : State) (a : Word) : (s.loadAccess a none).1 = s.readWord a := rfl

/-- An access hits exactly if a line of the set holds the tag. -/
theorem cacheAccess_hit (g : CacheConfig) (w : Bool) (c : Cache) (a : Nat) :
    (cacheAccess g w c a).1 = (hitWay g c a).isSome := by
  unfold cacheAccess; cases hitWay g c a <;> rfl

/-- Every access advances the stamp by one. -/
theorem cacheAccess_shape (g g' : CacheConfig) (w : Bool) {c : Cache} (a : Nat) (h : CacheShape g c) :
    CacheShape g (cacheAccess g' w c a).2 := by
  have line : ∀ v f st, CacheShape g ⟨updateLine g' c.sets a v f, st⟩ := by
    refine fun v f st => ⟨by simp [updateLine, h.sets], fun ways hw => ?_⟩
    rcases mem_updateAt hw with hw | ⟨y, hy, rfl⟩
    · exact h.ways _ hw
    · rw [length_updateAt]
      exact h.ways _ hy
  unfold cacheAccess
  split <;> exact line ..

theorem cacheAccess_stamp (g : CacheConfig) (w : Bool) (c : Cache) (a : Nat) :
    (cacheAccess g w c a).2.stamp = c.stamp + 1 := by
  unfold cacheAccess; cases hitWay g c a <;> rfl

/-- Changing a line changes that line alone. -/
theorem Cache.lineAt_updateLine (g : CacheConfig) (sets : List (List CacheLine)) (a w : Nat) (f : CacheLine → CacheLine)
    (st x y : Nat) :
    Cache.lineAt ⟨updateLine g sets a w f, st⟩ x y =
      if (x, y) = (cacheSet g a, w) then (Cache.lineAt ⟨sets, st⟩ x y).map f else Cache.lineAt ⟨sets, st⟩ x y := by
  unfold Cache.lineAt updateLine
  simp only [getElem?_updateAt]
  by_cases hx : x = cacheSet g a
  · subst hx
    simp only [if_true]
    cases sets[cacheSet g a]? with
    | none => simp
    | some ways =>
      simp only [Option.map_some, Option.bind_some, getElem?_updateAt, Prod.mk.injEq, true_and]
  · simp [hx]

/-- The victim of a set is one of its lines. -/
theorem victimWay_lt {ways : List CacheLine} (h : ways ≠ []) : victimWay ways < ways.length := by
  unfold victimWay
  split
  · obtain ⟨x, hx, -⟩ := firstIdx_some ‹_›
    exact (List.getElem?_eq_some_iff.1 hx).1
  · split
    · rename_i h2
      obtain ⟨x, hx, -⟩ := lowestIdx_some h2
      exact (List.getElem?_eq_some_iff.1 hx).1
    · exact List.length_pos_iff.2 h

/-! ### Prediction -/

/-- Shifting an outcome into bit 0 of the history (R109). -/
theorem shiftHistory_eq (c : Config) (g : Nat) (b : Bool) :
    shiftHistory c g b = ((g <<< 1) ||| b.toNat) % 2 ^ c.bpHistory := by
  have h := Nat.shiftLeft_add_eq_or_of_lt (a := g) (i := 1) (b := b.toNat) (by cases b <;> simp)
  rw [shiftHistory, ← h, Nat.shiftLeft_eq, Nat.pow_one, Nat.mul_comm]

/-- Training leaves the history alone. -/
@[simp] theorem predictorUpdate_ghr (c : Config) (p : Predictor) (e : RobEntry) : (predictorUpdate c p e).ghr = p.ghr := by
  unfold predictorUpdate btbUpdate phtUpdate btbInsert; split <;> split <;> rfl

/-- A lookup leaves the history alone, and so does a prediction. -/
@[simp] theorem predict_ghr (c : Config) (p : Predictor) (r : InstrRecord) (pc : Word) :
    (predict c p r pc).2.ghr = p.ghr := by
  unfold predict btbLookup
  split
  · cases btbFind p pc <;> simp; split <;> rfl
  · rfl

/-! ### Units -/

/-- One unit's part of the advance step: a busy unit loses a tick, is free when none is left and counts a busy tick; every
other unit is as before; no result is lost, and a unit that has finished outside the LSU class posts its own. -/
theorem State.advanceUnit_spec (s : State) (k k' : FuClass) (j j' : Nat) (u : FuUnit) (n : Nat)
    (h : (s.fu.get k')[j']? = some u) :
    ((s.advanceUnit k j).fu.get k')[j']? =
      some (if k' = k ∧ j' = j ∧ u.busy = true then
        { u with remaining := u.remaining - 1, busy := u.remaining - 1 != 0 } else u) ∧
    ((s.metrics.fuBusy.get k')[j']? = some n →
      ((s.advanceUnit k j).metrics.fuBusy.get k')[j']? = some (if k' = k ∧ j' = j ∧ u.busy = true then n + 1 else n)) ∧
    (∀ r, r ∈ s.cdbq → r ∈ (s.advanceUnit k j).cdbq) ∧
    (k' = k → j' = j → u.busy = true → u.remaining = 1 → k ≠ .lsu →
      u.result s.cfg.overflowTraps ∈ (s.advanceUnit k j).cdbq) := by
  have hfin : ∀ (t : State) v, (t.finishUnit k v).fu = t.fu ∧
      (t.finishUnit k v).metrics = t.metrics := by
    intro t v; cases k <;> simp [State.finishUnit]
  have hcd : ∀ (t : State) v, (∀ r, r ∈ t.cdbq → r ∈ (t.finishUnit k v).cdbq) ∧
      (k ≠ .lsu → v.result t.cfg.overflowTraps ∈ (t.finishUnit k v).cdbq) := by
    intro t v; cases k <;> simp [State.finishUnit]
    · intro r hr; exact .inl hr
    · intro r hr; exact .inl hr
  have hu : k' = k → j' = j → s.unitAt k j = u := by
    rintro rfl rfl; simp [State.unitAt, entryAt_eq_getD, h]
  unfold State.advanceUnit
  split
  · rename_i hb
    dsimp only
    split
    · rename_i hr
      refine ⟨?_, ?_, ?_, ?_⟩
      · simp only [State.setUnit, hfin, PerClass.get_set, State.countBusy, State.count]
        by_cases hk : k' = k
        · subst hk
          rw [if_pos rfl, getElem?_updateAt]
          by_cases hj : j' = j
          · subst hj
            have := hu rfl rfl
            rw [this] at hb hr ⊢
            simp [h, hb, hr]
          · simp [hj, h]
        · simp [hk, h]
      · intro hn
        simp only [State.setUnit, hfin, PerClass.get_set, State.countBusy, State.count]
        by_cases hk : k' = k
        · subst hk
          rw [if_pos rfl, getElem?_updateAt]
          by_cases hj : j' = j
          · subst hj
            have := hu rfl rfl
            rw [this] at hb
            simp [hn, hb]
          · simp [hj, hn]
        · simp [hk, hn]
      · intro r hr'
        exact (hcd _ _).1 r hr'
      · intro hk hj _ _ hl
        have := hu hk hj
        rw [this]
        exact (hcd (s.countBusy k j) u).2 hl
    · rename_i hr
      refine ⟨?_, ?_, ?_, ?_⟩
      · simp only [State.setUnit, PerClass.get_set, State.countBusy, State.count]
        by_cases hk : k' = k
        · subst hk
          rw [if_pos rfl, getElem?_updateAt]
          by_cases hj : j' = j
          · subst hj
            have := hu rfl rfl
            rw [this] at hb hr ⊢
            simp [h, hb, hr]
          · simp [hj, h]
        · simp [hk, h]
      · intro hn
        simp only [State.setUnit, PerClass.get_set, State.countBusy, State.count]
        by_cases hk : k' = k
        · subst hk
          rw [if_pos rfl, getElem?_updateAt]
          by_cases hj : j' = j
          · subst hj
            have := hu rfl rfl
            rw [this] at hb
            simp [hn, hb]
          · simp [hj, hn]
        · simp [hk, hn]
      · intro r hr'; exact hr'
      · intro hk hj _ h1 _
        rw [hu hk hj, h1] at hr; simp at hr
  · rename_i hb
    refine ⟨?_, ?_, fun r h => h, ?_⟩
    · rw [h, if_neg]; rintro ⟨a, b, c⟩; rw [hu a b] at hb; exact hb c
    · intro hn; rw [hn, if_neg]; rintro ⟨a, b, c⟩; rw [hu a b] at hb; exact hb c
    · intro a b c; rw [hu a b] at hb; exact absurd c hb

/-! ### The common data bus -/

theorem State.broadcastOne_rob (s : State) (r : CdbResult) :
    (s.broadcastOne r).rob = updateAt (fun e => e.broadcast r) s.rob r.rob := by
  unfold State.broadcastOne; dsimp only; cases r.exception <;> simp

theorem State.broadcastOne_rs (s : State) (r : CdbResult) :
    (s.broadcastOne r).rs =
      match r.exception with
      | none => s.rs.map (fun l => l.map (fun e => e.wake r.rob r.value))
      | some _ => s.rs := by
  unfold State.broadcastOne; dsimp only; cases r.exception <;> simp

theorem length_insertBySeq (r : CdbResult) (l : List CdbResult) : (insertBySeq r l).length = l.length + 1 := by
  induction l with
  | nil => rfl
  | cons x xs ih => unfold insertBySeq; split <;> simp [ih]

@[simp] theorem length_sortBySeq (l : List CdbResult) : (sortBySeq l).length = l.length := by
  induction l with
  | nil => rfl
  | cons x xs ih => simp [sortBySeq, length_insertBySeq, ih]

theorem insertBySeq_perm (r : CdbResult) (l : List CdbResult) : (insertBySeq r l).Perm (r :: l) := by
  induction l with
  | nil => exact .refl _
  | cons x xs ih =>
    unfold insertBySeq
    split
    · exact .refl _
    · exact (ih.cons x).trans (.swap r x xs)

/-- Sorting loses no result and makes none. -/
theorem sortBySeq_perm (l : List CdbResult) : (sortBySeq l).Perm l := by
  induction l with
  | nil => exact .refl _
  | cons x xs ih => exact (insertBySeq_perm x _).trans (ih.cons x)

/-- Results broadcast in order: the entry each one names is completed, an entry none names is as before, and where the
results name different entries each entry takes its own result. -/
theorem broadcastAll_rob_spec (l : List CdbResult) (s : State) :
    (broadcastAll l s).rob.length = s.rob.length ∧
    (∀ r, r ∈ l → r.rob < s.rob.length → ((broadcastAll l s).robAt r.rob).completed = true) ∧
    (∀ i, (s.robAt i).completed = true → ((broadcastAll l s).robAt i).completed = true) ∧
    (∀ i, (∀ r, r ∈ l → r.rob ≠ i) → (broadcastAll l s).robAt i = s.robAt i) ∧
    ((l.map (·.rob)).Nodup → ∀ r, r ∈ l → r.rob < s.rob.length →
      (broadcastAll l s).robAt r.rob = (s.robAt r.rob).broadcast r) := by
  induction l generalizing s with
  | nil => simp [broadcastAll]
  | cons x xs ih =>
    have hat : ∀ i, (s.broadcastOne x).robAt i =
        if i = x.rob ∧ i < s.rob.length then (s.robAt i).broadcast x else s.robAt i := by
      intro i; simp only [State.robAt, State.broadcastOne_rob, entryAt_updateAt]
    have hlen : (s.broadcastOne x).rob.length = s.rob.length := by rw [State.broadcastOne_rob, length_updateAt]
    have hbc : ∀ e : RobEntry, (e.broadcast x).completed = true := by intro e; unfold RobEntry.broadcast; split <;> rfl
    obtain ⟨i1, i2, i3, i4, i5⟩ := ih (s.broadcastOne x)
    show (broadcastAll xs (s.broadcastOne x)).rob.length = _ ∧ _
    refine ⟨i1.trans hlen, ?_, ?_, ?_, ?_⟩
    · intro r hr hl
      rcases List.mem_cons.1 hr with rfl | hr
      · apply i3; rw [hat, if_pos ⟨rfl, hl⟩]; exact hbc _
      · exact i2 r hr (by rw [hlen]; exact hl)
    · intro i hi; apply i3; rw [hat]; split
      · exact hbc _
      · exact hi
    · intro i hi
      show (broadcastAll xs (s.broadcastOne x)).robAt i = _
      rw [i4 i (fun r hr => hi r (List.mem_cons_of_mem _ hr)), hat, if_neg (fun c => hi x List.mem_cons_self c.1.symm)]
    · intro hn r hr hl
      show (broadcastAll xs (s.broadcastOne x)).robAt r.rob = _
      rw [List.map_cons, List.nodup_cons] at hn
      rcases List.mem_cons.1 hr with rfl | hr
      · rw [i4 _ (fun q hq c => hn.1 (by rw [← c]; exact List.mem_map_of_mem hq)), hat, if_pos ⟨rfl, hl⟩]
      · rw [i5 hn.2 r hr (by rw [hlen]; exact hl), hat, if_neg]
        rintro ⟨c, -⟩; exact hn.1 (by rw [← c]; exact List.mem_map_of_mem hr)

/-! ### Fetch -/

@[simp] theorem State.icacheAfter_nil (s : State) : s.icacheAfter [] = s.icache := rfl

@[simp] theorem State.predAfter_nil (s : State) : s.predAfter [] = s.pred := rfl

/-! ### Issue -/

/-- Operand capture depends on the ROB and the register file alone. -/
theorem State.capture_congr {s t : State} (h1 : t.rob = s.rob) (h2 : t.rf = s.rf) (x : Snapshot) :
    t.capture x = s.capture x := by
  unfold State.capture State.robAt
  cases x <;> simp [h1, State.reg_congr h2]

/-! ### Allocation -/

theorem State.allocate_rob (s : State) (f : FetchRec) :
    (s.allocate f).rob = updateAt (fun _ => newRobEntry f s.seqNext) s.rob s.robTail := by
  simp [State.allocate]

theorem State.allocate_robTail (s : State) (f : FetchRec) :
    (s.allocate f).robTail = (s.robTail + 1) % s.cfg.robCap := by simp [State.allocate]

theorem State.allocate_robCount (s : State) (f : FetchRec) : (s.allocate f).robCount = s.robCount + 1 := by
  simp [State.allocate]

theorem State.allocate_seqNext (s : State) (f : FetchRec) : (s.allocate f).seqNext = s.seqNext + 1 := by
  simp [State.allocate]

@[simp] theorem State.decodeAll_nil (s : State) : s.decodeAll [] = s := rfl

@[simp] theorem State.decodeAll_cons (s : State) (f : FetchRec) (l : List FetchRec) :
    s.decodeAll (f :: l) = (State.allocate { s with fb := s.fb.tail } f).decodeAll l := rfl

/-- Allocation takes an LSQ entry for a load or a store alone. -/
theorem State.allocate_lsq_length (s : State) (f : FetchRec) :
    (s.allocate f).lsq.length = s.lsq.length + if bodyIs isMemory f.body then 1 else 0 := by
  unfold State.allocate State.allocateLsq State.renameDest
  dsimp only
  split <;> split <;> simp

/-- Allocation renames the destination alone, and moves no value. -/
theorem State.regEntry_allocate (s : State) (f : FetchRec) (r : Reg) :
    (s.allocate f).regEntry r =
      if bodyDest f.body = some r ∧ r ≠ 0 then ⟨(s.regEntry r).value, false, s.robTail⟩ else s.regEntry r := by
  have h : (s.allocate f).rf = (s.renameDest (bodyDest f.body) s.robTail).rf := by
    unfold State.allocate
    simp only [State.allocateLsq_rf]
    unfold State.renameDest State.setRename State.setRegEntry
    cases bodyDest f.body with
    | none => rfl
    | some d => dsimp only; split <;> rfl
  rw [State.regEntry_congr h]
  unfold State.renameDest
  cases bodyDest f.body with
  | none => simp
  | some d =>
    dsimp only
    rw [State.regEntry_setRename]
    by_cases hr : r = d
    · subst hr
      by_cases h0 : r = 0
      · rw [if_neg (fun c => c.2 h0), if_neg (fun c => c.2 h0)]
      · rw [if_pos ⟨rfl, h0⟩, if_pos ⟨rfl, h0⟩]
    · rw [if_neg (fun c => hr c.1), if_neg (fun c => hr (Option.some.inj c.1).symm)]

end Sys2Proof.Machine
end

