-- ==== Sys2Proof/Laws/Step.lean ====
section
/-!
SUPPORT. All that one step can do: the four cases of `step`, what an instruction's meaning can answer, and the frames of a
completed sequential step.
-/

namespace Sys2Proof.Machine

/-! ### The cases of a step -/

theorem step_of_refusal {s : State} {r : Refusal} (h : s.startRefusal = some r) : step s = .refused r := by
  unfold step; rw [h]; rfl

theorem step_of_ended {s : State} (h : s.startRefusal = none) (ho : s.outcome ≠ .running) :
    step s = .fault .runEnded := by
  unfold step; rw [h, if_neg ho]; rfl

theorem step_of_pipeline {s : State} (h : s.startRefusal = none) (ho : s.outcome = .running)
    (hd : s.driver = .pipeline) : step s = .next s.driverTick := by
  unfold step; rw [h, if_pos ho]; unfold State.advance; rw [hd]; rfl

theorem step_of_sequential {s : State} (h : s.startRefusal = none) (ho : s.outcome = .running)
    (hd : s.driver = .sequential) : step s = sequentialStep s := by
  unfold step; rw [h, if_pos ho]; unfold State.advance; rw [hd]; rfl

/-- A step that answers a next state is one tick or one sequential step of a running machine. -/
theorem step_next {s t : State} (h : step s = .next t) :
    s.startRefusal = none ∧ s.outcome = .running ∧
      ((s.driver = .pipeline ∧ t = s.driverTick) ∨ (s.driver = .sequential ∧ sequentialStep s = .next t)) := by
  cases hr : s.startRefusal with
  | some r => rw [step_of_refusal hr] at h; cases h
  | none =>
    by_cases ho : s.outcome = .running
    · refine ⟨rfl, ho, ?_⟩
      cases hd : s.driver with
      | pipeline => rw [step_of_pipeline hr ho hd] at h; exact .inl ⟨rfl, (Host.Outcome.next.inj h).symm⟩
      | sequential => rw [step_of_sequential hr ho hd] at h; exact .inr ⟨rfl, h⟩
    · rw [step_of_ended hr ho] at h; cases h

/-- The configuration and the instruction array of a machine that takes a step are valid. -/
theorem startRefusal_none {s : State} (h : s.startRefusal = none) :
    s.cfg.valid = true ∧ textLegal s.cfg.textBase s.imem = true := by
  unfold State.startRefusal at h
  split at h
  · cases h
  · split at h
    · cases h
    · exact ⟨by simpa using ‹¬s.cfg.valid = false›, by simpa using ‹¬textLegal s.cfg.textBase s.imem = false›⟩

/-! ### What an instruction can do -/

/-- Every meaning ends in one of four states: a fault, a retirement, a retirement after a store, a retirement that halts. -/
inductive Ends (s : State) : State → Prop where
  | raised (c : Cause) (addr : Word) : Ends s (s.raiseSequential c addr)
  | retired (rd : Reg) (v next : Word) : Ends s (s.retireSequential rd v next)
  | stored (ea v next : Word) : Ends s ((s.writeWord ea v).retireSequential 0 0 next)
  | halted (next : Word) : Ends s (s.retireSequential 0 0 next).halt

theorem finishSequential_ends (s : State) (rd : Reg) (r : ExecResult) :
    ∃ t, s.finishSequential rd r = .next t ∧ Ends s t := by
  rw [State.finishSequential_eq]
  cases r.exception with
  | some c => exact ⟨_, rfl, .raised ..⟩
  | none => exact ⟨_, rfl, .retired ..⟩

/-- Every instruction answers a next state, one of the four. -/
theorem exec_ends (i : Instr) (s : State) : ∃ t, exec i s = .next t ∧ Ends s t := by
  cases i with
  | lw rd rs1 imm =>
    simp only [exec, execLw]
    split
    · exact ⟨_, rfl, .raised ..⟩
    · exact finishSequential_ends ..
  | sw rs1 rs2 imm =>
    simp only [exec, execSw]
    split
    · exact ⟨_, rfl, .raised ..⟩
    · exact ⟨_, rfl, .stored ..⟩
  | syscall =>
    simp only [exec, execSyscall]
    split
    · exact ⟨_, rfl, .halted _⟩
    · exact ⟨_, rfl, .raised ..⟩
  | halt => exact ⟨_, rfl, .halted _⟩
  | _ =>
    simp only [exec, execAdd, execAddi, execSub, execMul, execAnd, execOr, execXor, execSll, execSrl, execSlt, execLi,
      execLa, execBeq, execBne, execBgt, execBge, execBle, execBlt, execJ, execJal, execJr, execNop]
    exact finishSequential_ends ..

/-- A sequential step always answers a next state, one of the four. -/
theorem sequentialStep_ends (s : State) : ∃ t, sequentialStep s = .next t ∧ Ends s t := by
  unfold sequentialStep
  split
  · exact exec_ends ..
  · exact ⟨_, rfl, .raised ..⟩

/-! ### Frames -/

theorem registerStep_retire (s : State) (rd : Reg) (v next : Word) :
    RegisterStep s (s.retireSequential rd v next) rd v next where
  regs _ := State.reg_retireSequential ..
  bytes a := State.readByte_congr (by simp) a
  done := ⟨rfl, by simp, rfl, rfl, State.sameEngine_retireSequential ..⟩

theorem plainStep_retire (s : State) (v next : Word) :
    PlainStep s (s.retireSequential 0 v next) next s.outcome where
  regs r := by rw [State.reg_retireSequential]; simp
  bytes a := State.readByte_congr (by simp) a
  done := ⟨rfl, by simp, rfl, rfl, State.sameEngine_retireSequential ..⟩

theorem plainStep_halt (s : State) (v next : Word) :
    PlainStep s (s.retireSequential 0 v next).halt next .halted where
  regs := (plainStep_retire s v next).regs
  bytes := (plainStep_retire s v next).bytes
  done := ⟨rfl, rfl, rfl, rfl,
    { State.sameEngine_retireSequential s 0 v next with }⟩

theorem faultStep_raise (s : State) (c : Cause) (addr : Word) : FaultStep s (s.raiseSequential c addr) c addr where
  outcome := rfl
  regs _ := rfl
  bytes _ := rfl
  pc := rfl
  notCounted := rfl
  notNumbered := rfl
  engine := State.sameEngine_raiseSequential s c addr

theorem nextSequential_eq (pc : Word) : nextSequential pc = pc + 4 := rfl

theorem exitRequested_eq (v : Word) : exitRequested v = decide (v = 10) := by
  unfold exitRequested
  by_cases h : v = 10#32 <;> simp [h]

end Sys2Proof.Machine
end

