-- ==== Sys2Proof/Tests/Slice0.lean ====
section
/-!
SUPPORT. Tests: well-formedness checks, decoding of words written out from spec/30_encoding.md and spec/95_test_vectors.md,
one-step tests of each instruction on the operands spec/95 section 2 lists, and for each statement with hypotheses a
witness that meets them.
-/

namespace Sys2Proof.Tests

open Sys2Proof.Machine

/-! ### Well-formedness: each check refuses an ill-formed term -/

theorem test_wf_refuses_sll_32 : (Instr.sll 1 2 32).wf = false := by decide
theorem test_wf_refuses_srl_32 : (Instr.srl 1 2 32).wf = false := by decide
theorem test_wf_accepts_sll_31 : (Instr.sll 1 2 31).wf = true := by decide
/-- R12 lists the reference values of the parameters that have a stated default. -/
theorem test_reference_defaults :
    Config.reference.commitWidth = 4 ∧ Config.reference.cdbWidth = 4 ∧ Config.reference.fbCap = 4 ∧
      Config.reference.byteOrder = .little ∧ Config.reference.overflowTraps = true := by decide
theorem test_reference_valid : Config.reference.valid = true := by decide
theorem test_config_refuses_fetchWidth : Config.valid { Config.reference with fetchWidth := 0 } = false := by decide
theorem test_config_refuses_issueWidth : Config.valid { Config.reference with issueWidth := 0 } = false := by decide
theorem test_config_refuses_commitWidth : Config.valid { Config.reference with commitWidth := 0 } = false := by decide
theorem test_config_refuses_cdbWidth : Config.valid { Config.reference with cdbWidth := 0 } = false := by decide
theorem test_config_refuses_fbCap : Config.valid { Config.reference with fbCap := 0 } = false := by decide
theorem test_config_refuses_robCap : Config.valid { Config.reference with robCap := 0 } = false := by decide
theorem test_config_refuses_lsqCap : Config.valid { Config.reference with lsqCap := 0 } = false := by decide
theorem test_config_refuses_maxCycles : Config.valid { Config.reference with maxCycles := 0 } = false := by decide
theorem test_config_refuses_rsCap_alu : Config.valid { Config.reference with rsCap := ⟨0, 8, 8⟩ } = false := by decide
theorem test_config_refuses_rsCap_fpu : Config.valid { Config.reference with rsCap := ⟨8, 0, 8⟩ } = false := by decide
theorem test_config_refuses_rsCap_lsu : Config.valid { Config.reference with rsCap := ⟨8, 8, 0⟩ } = false := by decide
theorem test_config_refuses_fuCount_alu : Config.valid { Config.reference with fuCount := ⟨0, 1, 1⟩ } = false := by decide
theorem test_config_refuses_fuCount_lsu : Config.valid { Config.reference with fuCount := ⟨2, 1, 0⟩ } = false := by decide
theorem test_config_refuses_fuLat_alu : Config.valid { Config.reference with fuLat := ⟨0, 4, 1⟩ } = false := by decide
theorem test_config_refuses_fuLat_fpu : Config.valid { Config.reference with fuLat := ⟨1, 0, 1⟩ } = false := by decide
theorem test_config_refuses_fuLat_lsu : Config.valid { Config.reference with fuLat := ⟨1, 4, 0⟩ } = false := by decide
theorem test_config_refuses_bpEntries : Config.valid { Config.reference with bpEntries := 0 } = false := by decide
theorem test_config_refuses_btbEntries : Config.valid { Config.reference with btbEntries := 0 } = false := by decide
theorem test_config_refuses_cache_size : Config.valid { Config.reference with icache := ⟨1000, 16, 2, 10⟩ } = false := by decide
theorem test_config_refuses_cache_block : Config.valid { Config.reference with icache := ⟨1024, 12, 2, 10⟩ } = false := by decide
theorem test_config_refuses_cache_assoc : Config.valid { Config.reference with dcache := ⟨1024, 16, 3, 10⟩ } = false := by decide
theorem test_config_refuses_cache_small_block : Config.valid { Config.reference with dcache := ⟨1024, 2, 2, 10⟩ } = false := by decide
theorem test_config_refuses_cache_too_small : Config.valid { Config.reference with dcache := ⟨16, 16, 2, 10⟩ } = false := by decide
theorem test_config_refuses_cache_miss : Config.valid { Config.reference with dcache := ⟨1024, 16, 2, 0⟩ } = false := by decide
theorem test_config_refuses_small_memory : Config.valid { Config.reference with memSize := 3 } = false := by decide
theorem test_config_refuses_large_memory : Config.valid { Config.reference with memSize := 4294967297 } = false := by decide
theorem test_config_refuses_textBase : Config.valid { Config.reference with textBase := 2#32 } = false := by decide

/-! ### Decoding: one word of each instruction, from R73, R74, R76 -/

theorem test_decode_add : decode 0x0180800000000000#64 = .ok (.add 16 2 0) := by decide
theorem test_decode_addi : decode 0x024A000000000001#64 = .ok (.addi 9 8 1) := by decide
theorem test_decode_sub : decode 0x034A940000000000#64 = .ok (.sub 9 10 10) := by decide
theorem test_decode_mul : decode 0x04739E0000000000#64 = .ok (.mul 14 14 15) := by decide
theorem test_decode_and : decode 0x05F8020000000000#64 = .ok (.and 31 0 1) := by decide
theorem test_decode_or : decode 0x060FFC0000000000#64 = .ok (.or 1 31 30) := by decide
theorem test_decode_xor : decode 0x074A920000000000#64 = .ok (.xor 9 10 9) := by decide
theorem test_decode_sll : decode 0x0862000000000004#64 = .ok (.sll 12 8 4) := by decide
theorem test_decode_srl : decode 0x090880000000001F#64 = .ok (.srl 1 2 31) := by decide
theorem test_decode_slt : decode 0x0A5A120000000000#64 = .ok (.slt 11 8 9) := by decide
theorem test_decode_li : decode 0x0B40000000000001#64 = .ok (.li 8 1) := by decide
theorem test_decode_la : decode 0x0C40000000000100#64 = .ok (.la 8 0x100) := by decide
theorem test_decode_lw : decode 0x0D4F400000000000#64 = .ok (.lw 9 29 0) := by decide
theorem test_decode_sw : decode 0x0E07500000000000#64 = .ok (.sw 29 8 0) := by decide
theorem test_decode_beq : decode 0x0F02000000400010#64 = .ok (.beq 8 0 0x00400010) := by decide
theorem test_decode_bne : decode 0x1002DA0000400018#64 = .ok (.bne 11 13 0x00400018) := by decide
theorem test_decode_bgt : decode 0x11000200FFFFFFFF#64 = .ok (.bgt 0 1 0xFFFFFFFF) := by decide
theorem test_decode_bge : decode 0x1200400000000004#64 = .ok (.bge 1 0 4) := by decide
theorem test_decode_ble : decode 0x1307FE0000000000#64 = .ok (.ble 31 31 0) := by decide
theorem test_decode_blt : decode 0x1402960000400010#64 = .ok (.blt 10 11 0x00400010) := by decide
theorem test_decode_j : decode 0x1500000000400008#64 = .ok (.j 0x00400008) := by decide
theorem test_decode_jal : decode 0x16F8000000400010#64 = .ok (.jal 0x00400010) := by decide
theorem test_decode_jr : decode 0x1707C00000000000#64 = .ok (.jr 31) := by decide
theorem test_decode_nop : decode 0x1800000000000000#64 = .ok (.nop) := by decide
theorem test_decode_syscall : decode 0x1900000000000000#64 = .ok (.syscall) := by decide
theorem test_decode_halt : decode 0x1A00000000000000#64 = .ok (.halt) := by decide

/-- The illegal words of spec/95 section 2.1. -/
theorem test_illegal_opcodes :
    [0x0000000000000000#64, 0x1B00000000000000#64, 0xFF00000000000000#64].map decode =
      [.error .unknownOpcode, .error .unknownOpcode, .error .unknownOpcode] := by decide

theorem test_illegal_fields :
    [0x0100000100000000#64,
     0x1600000000400010#64,
     0x0862000000000020#64,
     0x0B40400000000001#64,
     0x1800000000000001#64,
     0x1707C00000000004#64,
     0x0E87500000000000#64].all
      (fun w => decode w == .error .nonZeroUnusedField) = true := by decide

theorem test_decodeTableWord : decodeTableWord 64 0x1707C00000000000 = some (.jr 31) := by decide

/-! ### One step of each instruction (spec/95 sections 2.2, 2.3, 2.6, 2.7) -/

/-- `x[9] = a`, `x[10] = b`, at 0x00400000. -/
def start (a b : Word) : State := (State.reset.writeReg 9 a).writeReg 10 b

/-- The same with `OVERFLOW_TRAPS = false`. -/
def wrapping (a b : Word) : State := { start a b with cfg := { Config.reference with overflowTraps := false } }

/-- Does an outcome answer a next state that meets `p`? -/
def nextMeets (o : Host.Outcome State Fault Refusal) (p : State → Bool) : Bool :=
  match o with
  | .next t => p t
  | .fault _ => false
  | .refused _ => false

/-- The instruction writes `v` to register 8 and goes on. -/
def gives (i : Instr) (s : State) (v : Word) : Bool :=
  nextMeets (exec i s) (fun t => t.reg 8 == v && t.archPc == 0x00400004#32 && t.outcome == .running)

/-- The instruction ends the run with the fault `c` and the address `addr`. -/
def raises (i : Instr) (s : State) (c : Cause) (addr : Word) : Bool :=
  nextMeets (exec i s) (fun t => t.outcome == .faulted c 0x00400000#32 0 addr && t.reg 8 == s.reg 8)

/-- The instruction goes to `pc`, writing nothing to register 8. -/
def goes (i : Instr) (s : State) (pc : Word) : Bool :=
  nextMeets (exec i s) (fun t => t.archPc == pc && t.reg 8 == s.reg 8)

/-- A state with the bytes of a little-endian word at an address. -/
def withWord (s : State) (ea v : Word) : State := s.writeWord ea v

theorem test_add : gives (.add 8 9 10) (start 5 0xFFFFFFFD) 2 = true := by decide
theorem test_add_overflow : raises (.add 8 9 10) (start 0x80000000 0xFFFFFFFF) .arithmeticOverflow 0 = true := by decide
theorem test_addi : gives (.addi 8 9 0xFFFFFFFF) (start 5 0) 4 = true := by decide
theorem test_addi_overflow_zero_destination : raises (.addi 0 9 1) (start 0x7FFFFFFF 0) .arithmeticOverflow 0 = true := by decide
theorem test_sub_wraps : gives (.sub 8 9 10) (wrapping 0x80000000 1) 0x7FFFFFFF = true := by decide
theorem test_sub_overflow : raises (.sub 8 9 10) (start 0 0x80000000) .arithmeticOverflow 0 = true := by decide
theorem test_mul : gives (.mul 8 9 10) (start 6 0xFFFFFFF9) 0xFFFFFFD6 = true := by decide
theorem test_mul_truncates : gives (.mul 8 9 10) (start 0x80000000 0xFFFFFFFF) 0x80000000 = true := by decide
theorem test_and : gives (.and 8 9 10) (start 0xF0F0F0F0 0x0FF00FF0) 0x00F000F0 = true := by decide
theorem test_or : gives (.or 8 9 10) (start 0xF0F0F0F0 0x0FF00FF0) 0xFFF0FFF0 = true := by decide
theorem test_xor : gives (.xor 8 9 10) (start 0xF0F0F0F0 0x0FF00FF0) 0xFF00FF00 = true := by decide
theorem test_sll : gives (.sll 8 9 31) (start 1 0) 0x80000000 = true := by decide
theorem test_sll_by_zero : gives (.sll 8 9 0) (start 0xFFFFFFFF 0) 0xFFFFFFFF = true := by decide
theorem test_srl : gives (.srl 8 9 4) (start 0xF0000000 0) 0x0F000000 = true := by decide
theorem test_slt_signed : gives (.slt 8 9 10) (start 0x80000000 0x7FFFFFFF) 1 = true := by decide
theorem test_slt_equal : gives (.slt 8 9 10) (start 4 4) 0 = true := by decide
theorem test_li : gives (.li 8 0xFFFFFFFF) (start 0 0) 0xFFFFFFFF = true := by decide
theorem test_la : gives (.la 8 0x100) (start 0 0) 0x100 = true := by decide
theorem test_lw : gives (.lw 8 9 0) (withWord (start 0x100 0) 0x100 0x12345678) 0x12345678 = true := by decide
theorem test_lw_misaligned_before_bounds : raises (.lw 8 9 0) (start 0x1002 0) .misalignedAccess 0x1002 = true := by decide
theorem test_sw_little : nextMeets (exec (.sw 9 10 4) (start 0x100 0xCAFEF00D))
    (fun t => t.mem == [(0x104, 0x0D), (0x105, 0xF0), (0x106, 0xFE), (0x107, 0xCA)]) = true := by decide
theorem test_sw_past_the_top : raises (.sw 9 10 0) (start 4096 1) .memoryFault 0x1000 = true := by decide
theorem test_beq : goes (.beq 9 10 0x00400010) (start 7 7) 0x00400010 = true := by decide
theorem test_bne : goes (.bne 9 10 0x00400010) (start 3 3) 0x00400004 = true := by decide
theorem test_bgt : goes (.bgt 9 10 0x00400010) (start 5 0xFFFFFFFB) 0x00400010 = true := by decide
theorem test_bge : goes (.bge 9 10 0x00400010) (start 0x80000000 0x7FFFFFFF) 0x00400004 = true := by decide
theorem test_ble : goes (.ble 9 10 0x00400010) (start 0xFFFFFFFF 0) 0x00400010 = true := by decide
theorem test_blt : goes (.blt 9 10 0x00400010) (start 0x80000000 0) 0x00400010 = true := by decide
theorem test_beq_other : goes (.beq 9 10 0x00400010) (start 7 8) 0x00400004 = true := by decide
theorem test_bne_other : goes (.bne 9 10 0x00400010) (start 3 4) 0x00400010 = true := by decide
theorem test_bgt_other : goes (.bgt 9 10 0x00400010) (start 0xFFFFFFFF 1) 0x00400004 = true := by decide
theorem test_bge_other : goes (.bge 9 10 0x00400010) (start 4 4) 0x00400010 = true := by decide
theorem test_ble_other : goes (.ble 9 10 0x00400010) (start 1 0) 0x00400004 = true := by decide
theorem test_blt_other : goes (.blt 9 10 0x00400010) (start 2 2) 0x00400004 = true := by decide
theorem test_j : goes (.j 0x00400000) (start 0 0) 0x00400000 = true := by decide
theorem test_jal : nextMeets (exec (.jal 0x00400010) (start 0 0))
    (fun t => t.archPc == 0x00400010 && t.reg 31 == 0x00400004) = true := by decide
theorem test_jr : goes (.jr 9) (start 0x00400014 0) 0x00400014 = true := by decide
theorem test_nop : goes .nop (start 0 0) 0x00400004 = true := by decide
theorem test_syscall_exit : nextMeets (exec .syscall (State.reset.writeReg 2 10)) (fun t => t.outcome == .halted) = true := by decide
theorem test_syscall_unsupported : raises .syscall (State.reset.writeReg 2 4) .unsupportedSyscall 0 = true := by decide
theorem test_halt : nextMeets (exec .halt (start 0 0)) (fun t => t.outcome == .halted && t.archPc == 0x00400004) = true := by decide

/-! ### The step, and single operations of the pipeline (spec/95 sections 2.3 to 2.5) -/

/-- A word placed where the next step fetches is run by that step. -/
theorem test_step_runs_fetched_word :
    nextMeets (step (State.reset.withFetchWord 64 0x0B400000DEADBEEF)) (fun t => t.reg 8 == 0xDEADBEEF) = true := by
  decide

/-- From reset with nothing loaded the first tick fetches a fetch fault record (R103). -/
theorem test_reset_tick :
    nextMeets (step State.reset) (fun t => t.cycle == 1 && t.fb.length == 1 && t.fetch.blocked) = true := by decide

theorem test_bimodal_index : phtIndex Config.reference 0x00400010 0 = 4 := by decide
theorem test_gshare_index : phtIndex { Config.reference with bpType := .gshare } 0x00400010 5 = 1 := by decide

/-- 0x300 is in set 16 with tag 1 (spec/95 section 2.5). -/
theorem test_cache_address :
    (cacheSet Config.reference.icache 0x300, cacheTag Config.reference.icache 0x300) = (16, 1) := by decide

theorem test_load_big_endian :
    memReadWord .big [(0x100, 0x78), (0x101, 0x56), (0x102, 0x34), (0x103, 0x12)] 0x100 = 0x78563412 := by decide

/-! ### Witnesses: for each statement with hypotheses, concrete inputs that meet them -/

theorem exists_next {o : Host.Outcome State Fault Refusal} (h : nextMeets o (fun _ => true) = true) :
    ∃ t, o = .next t := by
  cases o with
  | next t => exact ⟨t, rfl⟩
  | fault r => cases h
  | refused r => cases h

/-- The fetched record of an instruction, predicted not taken. -/
def recordOf (i : Instr) (pc : Word) : FetchRec := fetchedRecord i.record pc Prediction.notTaken 0

/-- Reset, with one instruction decoded. -/
def oneIn (i : Instr) : State := State.reset.allocate (recordOf i 0x00400000)

/-- Reset, with two instructions decoded. -/
def twoIn (i j : Instr) : State := (oneIn i).allocate (recordOf j 0x00400004)

/-- An `addi` at the head, completed with value 7. -/
def headDone : State := (oneIn (.addi 9 0 7)).updateRob 0 (fun e => { e with completed := true, value := 7 })

/-- A `beq` at the head, completed and mispredicted. -/
def headMispredicted : State :=
  (oneIn (.beq 0 0 0x00400010)).updateRob 0
    (fun e => { e with completed := true, actualTaken := true, actualNextPc := 0x00400010 })

/-- An `addi` in flight behind a `lw`: registers 8 and 9 are renamed, one entry waits in the LSQ. -/
def busy : State := twoIn (.lw 8 0 0x100) (.addi 9 8 1)

/-- `lw` of 0x100 whose address is resolved, behind a resolved store of 5 to 0x100. -/
def loadBehindStore : State :=
  { State.reset with
    lsq := [⟨0, 0, .store, true, 0x100, none, 5, .waitAddr⟩, ⟨1, 1, .load, true, 0x100, none, 0, .ready⟩] }

/-- `lw` of 0x100 whose address is resolved, alone. -/
def loadAlone : State := { State.reset with lsq := [⟨1, 1, .load, true, 0x100, none, 0, .ready⟩] }

/-- A unit that resolves `0 + 0x100` for ROB entry 0. -/
def resolver (addr : Word) : FuUnit := ⟨true, 1, .lw, 0, 5, addr, 0x00400000, 0x00400004, 0, 0⟩

/-- A result of ROB entry 0. -/
def resultOf (seq : Nat) (exc : Option Cause) : CdbResult := ⟨seq, 0, 7, exc, 0, false, 0x00400004, none⟩

/-- Reset with two records loaded. -/
def loaded : State :=
  { State.reset with imem := [encode (.li 8 1), encode .halt] }

/-- A program that loads. -/
def program : Program := { text := [encode (.li 8 1), encode .halt], data := [.asciiz [0x41], .word [0x12345678]] }

theorem witness_DecodeOfEncode : (Instr.sll 31 31 31).wf = true ∧ (Instr.addi 31 0 0xFFFFFFFF).wf = true := by decide

theorem witness_EncodeOfDecode : decode 0x086FC0000000001F#64 = .ok (.sll 13 31 31) := by decide

theorem witness_IllegalWordsRejected :
    Config.reference.valid = true ∧ 0x1B00000000000000#64 ∈ [0x1B00000000000000#64] ∧
      decode 0x1B00000000000000#64 = .error .unknownOpcode ∧
      Opcode.ofNumber? (wordOp 0x0100000000000000#64) = some .add ∧
      Opcode.ofNumber? (wordOp 0x1A00000000000000#64) = some .halt := by decide

theorem witness_SequentialStepRunsInstruction :
    let s := State.reset.withFetchWord 64 0x0B40000000000001
    s.startRefusal = none ∧ s.outcome = .running ∧ s.driver = .sequential ∧ 0 < s.imem.length ∧
      s.archPc = s.cfg.textBase + BitVec.ofNat 32 (4 * 0) ∧ decode (s.imem.getD 0 0) = .ok (.li 8 1) := by decide

/-- The three ways a pc names no record: misaligned, below the text, at its end. -/
theorem witness_SequentialFetchFault :
    let s := { loaded with driver := .sequential }
    s.startRefusal = none ∧ s.outcome = .running ∧
      ({ s with archPc := 0x00400001 } : State).archPc.toNat % 4 ≠ 0 ∧
      ({ s with archPc := 0x003FFFFC } : State).archPc.toNat < s.cfg.textBase.toNat ∧
      s.cfg.textBase.toNat + 4 * s.imem.length ≤ ({ s with archPc := 0x00400008 } : State).archPc.toNat := by decide

theorem witness_PipelineStepIsOneTick :
    State.reset.startRefusal = none ∧ State.reset.outcome = .running ∧ State.reset.driver = .pipeline ∧
      State.reset.tick.outcome = .running ∧ State.reset.cycle + 1 ≠ State.reset.cfg.maxCycles := by decide

/-- The last tick before the limit, still running after it. -/
theorem witness_PipelineStepIsOneTick_limit :
    let s := { State.reset with cycle := 9999 }
    s.startRefusal = none ∧ s.outcome = .running ∧ s.driver = .pipeline ∧ s.tick.outcome = .running ∧
      s.cycle + 1 = s.cfg.maxCycles := by decide

theorem witness_StepStopsByName :
    let bad := { State.reset with cfg := { Config.reference with robCap := 0 } }
    let illegal := { State.reset with imem := [0x0000000000000000#64] }
    bad.cfg.valid = false ∧ illegal.cfg.valid = true ∧ 0x0000000000000000#64 ∈ illegal.imem ∧
      decode 0x0000000000000000#64 = .error .unknownOpcode ∧
      State.reset.halt.startRefusal = none ∧ State.reset.halt.outcome ≠ .running := by decide

/-- Each sum or difference at an end of the range, and a machine that does not trap. -/
theorem witness_AddAddiSubComplete :
    (wrapping 0 0).cfg.overflowTraps = false ∧
      ((start 0x7FFFFFFF 0).reg 9).toInt + ((start 0x7FFFFFFF 0).reg 10).toInt = 2 ^ 31 - 1 ∧
      ((start 0x80000001 0).reg 9).toInt + (0xFFFFFFFF#32).toInt = -2 ^ 31 ∧
      ((start 0xFFFFFFFF 0x7FFFFFFF).reg 9).toInt - ((start 0xFFFFFFFF 0x7FFFFFFF).reg 10).toInt = -2 ^ 31 := by
  decide

/-- Each sum or difference one outside the range. -/
theorem witness_AddAddiSubOverflow :
    (start 0 0).cfg.overflowTraps = true ∧
      2 ^ 31 - 1 < ((start 0x7FFFFFFF 1).reg 9).toInt + ((start 0x7FFFFFFF 1).reg 10).toInt ∧
      ((start 0x80000000 0).reg 9).toInt + (0xFFFFFFFF#32).toInt < -2 ^ 31 ∧
      2 ^ 31 - 1 < ((start 0 0x80000000).reg 9).toInt - ((start 0 0x80000000).reg 10).toInt := by decide

/-- The last word of memory. -/
theorem witness_LwCompletes :
    ((start 4092 0).reg 9 + 0).toNat % 4 = 0 ∧ ((start 4092 0).reg 9 + 0).toNat + 4 ≤ (start 4092 0).cfg.memSize := by
  decide

theorem witness_SwCompletes :
    let s := withWord (start 4088 0) 0x100 1
    memWf s.mem = true ∧ (effectiveAddress (s.reg 9) 4).toNat % 4 = 0 ∧
      (effectiveAddress (s.reg 9) 4).toNat + 4 ≤ s.cfg.memSize := by decide

/-- Misaligned inside memory, and the first aligned address outside it. -/
theorem witness_MemoryAccessFaults :
    ((start 0x102 0).reg 9 + 0).toNat % 4 ≠ 0 ∧ ((start 4096 0).reg 9 + 0).toNat % 4 = 0 ∧
      (start 4096 0).cfg.memSize < ((start 4096 0).reg 9 + 0).toNat + 4 := by decide

/-- A canonical memory, and the bytes just below and just above a word. -/
theorem witness_ReadAfterWrite :
    memWf (withWord State.reset 0x100 0x01000001).mem = true ∧ (0xFF < (0x100#32).toNat) ∧
      (0x100#32).toNat + 4 ≤ 0x104 := by decide

theorem witness_SyscallExitsOrFaults :
    (State.reset.writeReg 2 10).reg 2 = 10 ∧ (State.reset.writeReg 2 11).reg 2 ≠ 10 := by decide

theorem witness_UnitAgreesWithExec :
    opClass (Instr.add 1 2 3).record.op = some .alu ∧ opClass (Instr.jr 31).record.op = some .alu := by decide

theorem witness_MemoryStaysCanonical :
    (∃ t, step (withWord busy 0x100 1) = .next t) ∧ memWf (withWord busy 0x100 1).mem = true :=
  ⟨exists_next (by decide), by decide⟩

theorem busy_steps : ∃ t, step busy = .next t := exists_next (by decide)

theorem zeroHeld_busy : ZeroHeld busy := by unfold ZeroHeld; decide

/-- A running machine, a program that loads, a record and a ROB entry without a destination, a register 0 that is not 0. -/
theorem witness_ZeroRegisterHeld :
    (∃ t, step busy = .next t) ∧ ZeroHeld busy ∧ (∃ s, State.load Config.reference program = .next s) ∧
      (recordOf (.addi 0 8 1) 0x00400000).body = some ⟨.addi, 0, 8, 0, 1⟩ ∧ headMispredicted.headEntry.dest = none ∧
      ({ program with initRegs := Vector.replicate 32 1 } : Program).initRegs[0] ≠ 0 :=
  ⟨busy_steps, zeroHeld_busy, exists_next (by decide), by decide, by decide, by decide⟩

theorem witness_ConfigurationAndTextFixed : ∃ t, step busy = .next t := busy_steps

theorem robRing_busy : RobRing busy where
  size := by decide
  head := by decide
  count := by decide
  tail := by decide
  valid := by unfold State.inWindow; decide

/-- Two registers of `busy` are renamed. -/
theorem witness_RenameMapSound :
    (∃ t, step busy = .next t) ∧ ZeroHeld busy ∧ RobRing busy ∧ RenameSound busy ∧
      (busy.regEntry 8).ready = false ∧ (busy.regEntry 9).ready = false :=
  ⟨busy_steps, zeroHeld_busy, robRing_busy, by unfold RenameSound; decide, by decide, by decide⟩

theorem robOrdered_busy : RobOrdered busy where
  rising j k hj hk := by
    have h : busy.robCount = 2 := by decide
    obtain ⟨rfl, rfl⟩ : j = 0 ∧ k = 1 := by omega
    decide
  below := by decide

/-- The head of `headDone` is committed. -/
theorem witness_CommitInProgramOrder :
    RobRing busy ∧ RobOrdered busy ∧ (∃ t, step busy = .next t) ∧ headDone.commitStageLog.length = 1 :=
  ⟨robRing_busy, robOrdered_busy, busy_steps, by decide⟩

theorem witness_CapacitiesKept : (∃ t, step busy = .next t) ∧ WithinCapacity busy :=
  ⟨busy_steps, by decide, by decide, by decide, by decide, by intro k; cases k <;> decide,
    by intro k; cases k <;> decide, by intro k; cases k <;> decide, by decide, by decide, ⟨by decide, by decide⟩,
    ⟨by decide, by decide⟩⟩

/-- Two records wait in the decode latch of `busy`. -/
theorem witness_LatchAlwaysEmptied : LatchReserved busy ∧ busy.dl.length = 2 ∧ (∃ t, step busy = .next t) :=
  ⟨⟨by decide, by intro k; cases k <;> decide, by intro k; cases k <;> decide⟩, by decide, busy_steps⟩

/-- The first latched record of `busy` is a `lw`, and its class has a free station; a producer that waits, one that is
completed, one with an exception, and one that has left. -/
theorem witness_LatchAlwaysEmptied_capture :
    (busy.dl.head?.map (fun d => d.fetched.body)) = some (some (Instr.lw 8 0 0x100).record) ∧
      (busy.rs.get .lsu)[0]? = some (RsEntry.empty .lsu) ∧
      ((busy.robAt 0).valid = true ∧ (busy.robAt 0).seq = 0 ∧ (busy.robAt 0).completed = false) ∧
      ((headDone.robAt 0).valid = true ∧ (headDone.robAt 0).seq = 0 ∧ (headDone.robAt 0).completed = true ∧
        (headDone.robAt 0).exception = none) ∧
      ((oneIn .nop).allocate (faultRecord 2 0)).robAt 1 ≠ RobEntry.empty ∧
      (((oneIn .nop).allocate (faultRecord 2 0)).robAt 1).exception ≠ none ∧ (busy.robAt 2).valid = false := by decide

theorem witness_HistoryStaysInWidth : (∃ t, step busy = .next t) ∧ HistoryFits busy :=
  ⟨busy_steps, by decide, by decide, fun t => forall_entryAt (P := fun e : RobEntry => e.ghrSnap < 2 ^ 4) (by decide) t⟩

/-- A machine whose predictor keeps no history. -/
theorem witness_HistoryStaysInWidth_bimodal : (∃ t, step busy = .next t) ∧ busy.cfg.bpType ≠ .gshare :=
  ⟨busy_steps, by decide⟩

/-- One unit of `busy` works, at its full latency. -/
theorem witness_UnitsKeepWithinLatency :
    let s := { busy with fu := ⟨[resolver 0, FuUnit.idle], [FuUnit.idle], [FuUnit.idle]⟩ }
    (∃ t, step s = .next t) ∧ UnitsWithinLatency s :=
  ⟨exists_next (by decide), by intro k; cases k <;> decide⟩

/-- A unit in its last tick, one with two ticks left, a free one, and their busy counts. -/
theorem witness_UnitsKeepWithinLatency_advance :
    let s := { busy with fu := ⟨[resolver 0, { resolver 0 with remaining := 2 }], [FuUnit.idle], []⟩ }
    ((s.fu.get .alu)[0]? = some (resolver 0) ∧ (resolver 0).busy = true ∧ (resolver 0).remaining = 1) ∧
    (s.fu.get .alu)[1]? = some { resolver 0 with remaining := 2 } ∧
    ((s.fu.get .fpu)[0]? = some FuUnit.idle ∧ FuUnit.idle.busy = false) ∧
    (s.metrics.fuBusy.get .alu)[0]? = some 0 := by decide

/-- One finishing unit of each kind; the ALU unit's result is `0 + 1`, the LSU unit resolves the load of ROB entry 0. -/
theorem witness_UnitsKeepWithinLatency_finish :
    let s := { busy with fu := ⟨[{ resolver 1 with op := .addi, rob := 1 }], [], [resolver 0x100]⟩ }
    UnitsWithinLatency s ∧ s.advanceStage.cdbq.map (fun r => (r.rob, r.value)) = [(1, 1)] ∧
      s.advanceStage.lsq.map (fun l => (l.addrOk, l.addr)) = [(true, 0x100)] :=
  ⟨by intro k; cases k <;> decide, by decide, by decide⟩

theorem witness_CacheCountsKept : (∃ t, step busy = .next t) ∧ CacheCountsSound busy :=
  ⟨busy_steps, by unfold CacheCountsSound; decide⟩

theorem witness_ResetValues : ∃ s, State.load Config.reference program = .next s := exists_next (by decide)

theorem witness_LoadedStateMeetsInvariants : ∃ s, State.load Config.reference program = .next s :=
  exists_next (by decide)

/-- One input for each refusal, at the boundary, and one that loads. -/
theorem witness_LoaderRefusesOrResets :
    let c := Config.reference
    Config.valid { c with memSize := 3 } = false ∧ c.valid = true ∧
      decode 0x1B00000000000000#64 = .error .unknownOpcode ∧ (Vector.replicate 32 1#32)[0] ≠ 0 ∧
      (0x00400002#32).toNat % 4 ≠ 0 ∧ program.text ≠ [] ∧ (0x003FFFFC#32).toNat < c.textBase.toNat ∧
      c.textBase.toNat + 4 * program.text.length ≤ (0x00400008#32).toNat ∧
      2 ^ 32 < (0xFFFFFFFC#32).toNat + 4 * program.text.length ∧
      nextMeets (State.load c program) (fun _ => true) = true := by decide

/-- The reference configuration meets every condition of R199; a cache with a block that is no power of two does not. -/
theorem witness_LoaderRefusesOrResets_config :
    ValidConfig Config.reference ∧ ¬ ValidCache ⟨1024, 12, 2, 10⟩ := by
  refine ⟨⟨by decide, by decide, by decide, by decide, by decide, by decide, by decide, by decide,
    fun k => by cases k <;> decide, by decide, by decide, fun k => by cases k <;> decide, by decide, by decide,
    ⟨⟨10, rfl⟩, ⟨4, rfl⟩, ⟨1, rfl⟩, by decide, by decide, by decide⟩,
    ⟨⟨10, rfl⟩, ⟨4, rfl⟩, ⟨1, rfl⟩, by decide, by decide, by decide⟩, by decide, by decide, by decide⟩, fun h => ?_⟩
  exact absurd ((isPowerOfTwo_iff 12).2 h.block) (by decide)

/-- A program that meets every condition, with a datum of each kind; and data whose last byte is the first at or beyond
`MEM_SIZE`. -/
theorem witness_LoaderRefusesOrResets_data :
    Loadable Config.reference { program with data := program.data ++ [.space 4], dataBase := 4086 } ∧
      ¬ Loadable Config.reference { program with data := program.data ++ [.space 5], dataBase := 4086 } := by
  refine ⟨⟨?_, by decide, by decide, by decide, by decide, by decide⟩, fun h => ?_⟩
  · intro w hw
    obtain rfl | rfl : w = encode (.li 8 1) ∨ w = encode .halt := by simpa [program] using hw
    · exact ⟨.li 8 1, by decide⟩
    · exact ⟨.halt, by decide⟩
  · exact absurd h.dataFits (by decide)

/-- Two bytes are passed over before the word list of `program`. -/
theorem witness_LoaderRefusesOrResets_padding :
    program.data = [.asciiz [0x41]] ++ .word (0x12345678 :: []) :: [] ∧ dataEnd program.dataBase [.asciiz [0x41]] = 2 ∧
      alignUp4 2 = 4 := by decide

/-- `ENTRY_PC` is `TEXT_BASE` unless the loader gives one; the word datum is at the next multiple of 4. -/
theorem test_load_defaults :
    nextMeets (State.load Config.reference program)
      (fun t => t.archPc == 0x00400000 && t.readByte 0 == 0x41 && t.readWord 4 == 0x12345678) = true := by decide

theorem witness_NoDoubleWrite :
    headDone.headEntry.exception = none ∧ headDone.headEntry.dest = some 9 ∧ (9 : Reg) ∈ [(9 : Reg)] := by decide

theorem witness_CommittedCountIsLog : headDone.headEntry ∈ headDone.commitStageLog := by decide

/-- A completed head with a register, and one that is a `syscall` with the exit request. -/
theorem witness_CommittedCountIsLog_retired :
    let u := (oneIn .syscall).writeReg 2 10
    (0 < headDone.cfg.commitWidth ∧ headDone.robCount ≠ 0 ∧ headDone.headEntry.completed = true ∧
      headDone.headEntry.exception = none ∧ headDone.headEntry.op ≠ some .syscall) ∧
    (u.robCount ≠ 0 ∧ u.headEntry.completed = true ∧ u.headEntry.exception = none ∧ u.reg 2 = 10) ∧
    headDone.commitStageLog = [] ++ headDone.headEntry :: [] := by decide

/-- What ends the commits of a tick: a second write of a register behind a first, and `W_c` entries committed. -/
theorem witness_CommittedCountIsLog_ends :
    let done := fun e : RobEntry => { e with completed := true }
    let s := ((twoIn (.addi 9 0 7) (.addi 9 0 8)).updateRob 0 done).updateRob 1 done
    let u := { twoIn .nop .nop with cfg := { Config.reference with commitWidth := 1 } }
    (s.commitStageLog.length = 1 ∧ (s.commitAll s.commitStageLog).headEntry.dest = some 9) ∧
      u.commitStageLog.length = u.cfg.commitWidth ∧ (u.commitAll u.commitStageLog).headEntry.completed = true := by decide

theorem witness_CommitOneEffects : headDone.robHead < headDone.rob.length := by decide

/-- A committed store makes its line dirty. -/
theorem test_store_dirties_line :
    let s := (oneIn (.sw 0 8 0)).updateRob 0 (fun e => { e with completed := true, stAddr := 0x100, stValue := 5 })
    s.headEntry.isStore = true ∧
      ((s.commitOne s.headEntry).dcache.sets.any (fun ways => ways.any (fun l => l.valid && l.dirty))) = true := by decide

/-- A head with an exception, and a head that is a `syscall` without the exit request. -/
theorem witness_FaultAtHeadIsSurfaced :
    let s := headDone.updateRob 0 (fun e => { e with exception := some .arithmeticOverflow })
    let u := oneIn .syscall
    (0 < s.cfg.commitWidth ∧ s.robCount ≠ 0 ∧ s.headEntry.completed = true ∧
      s.headEntry.exception = some .arithmeticOverflow) ∧
    (0 < u.cfg.commitWidth ∧ u.robCount ≠ 0 ∧ u.headEntry.completed = true ∧ u.headEntry.exception = none ∧
      u.headEntry.op = some .syscall ∧ u.reg 2 ≠ 10) := by decide

/-- After a `nop` that commits: a head with an exception, and a `syscall` without the exit request. -/
theorem witness_FaultAtHeadIsSurfaced_later :
    let s := (twoIn .nop .nop).updateRob 1 (fun e => { e with exception := some .arithmeticOverflow })
    let u := twoIn .nop .syscall
    (s.commitStageLog.length = 1 ∧ s.cfg.commitWidth = 4 ∧ (s.commitAll s.commitStageLog).robCount = 1 ∧
      (s.commitAll s.commitStageLog).headEntry.completed = true ∧ s.outcome = .running ∧
      s.commitStageLog.getLast?.map (fun e => e.halts || e.mispredicted) = some false ∧
      s.commitStage.outcome = .faulted .arithmeticOverflow 0x00400004 1 0) ∧
    (u.commitStageLog.length = 1 ∧ (u.commitAll u.commitStageLog).headEntry.op = some .syscall ∧
      (u.commitAll u.commitStageLog).headEntry.exception = none ∧ (u.commitAll u.commitStageLog).reg 2 ≠ 10 ∧
      (u.commitAll u.commitStageLog).headEntry.dest = none) := by decide

/-- A `halt` at the head, alone; and behind an entry that goes on. -/
theorem witness_HaltEndsCommit :
    (oneIn .halt).outcome = .running ∧ (oneIn .halt).commitStageLog = [(oneIn .halt).headEntry] ∧
      (oneIn .halt).headEntry.halts = true ∧ (twoIn .nop .halt).commitStageLog.length = 2 := by decide

/-- The two ways to be mispredicted, one without the other, and neither. -/
theorem test_misprediction_criterion :
    let e := headMispredicted.headEntry
    e.mispredicted = true ∧
      ({ e with actualTaken := false } : RobEntry).mispredicted = true ∧
      ({ e with actualNextPc := e.fetchedNextPc } : RobEntry).mispredicted = true ∧
      ({ e with actualNextPc := e.fetchedNextPc, actualTaken := false } : RobEntry).mispredicted = false ∧
      ({ e with actualNextPc := e.fetchedNextPc, isCtl := false } : RobEntry).mispredicted = false := by decide

theorem witness_MispredictionSquashes :
    headMispredicted.commitStageLog = [] ++ [headMispredicted.headEntry] ∧
      headMispredicted.headEntry.mispredicted = true ∧ headMispredicted.headEntry.halts = false := by decide

/-- The same with gshare, and a mispredicted jump, which is no conditional branch. -/
theorem witness_MispredictionSquashes_gshare :
    let c := { Config.reference with bpType := .gshare }
    let s := { headMispredicted with cfg := c }
    let u := { (oneIn (.j 8)).updateRob 0 (fun e => { e with completed := true, actualNextPc := 8 }) with cfg := c }
    (s.commitStageLog = [] ++ [s.headEntry] ∧ s.headEntry.op = some .beq ∧ s.cfg.bpType = .gshare) ∧
      (u.commitStageLog = [] ++ [u.headEntry] ∧ u.headEntry.mispredicted = true ∧ u.headEntry.halts = false ∧
        u.headEntry.op = some .j) := by decide

theorem witness_SequenceNumbersOnlyRise :
    (∃ t, step busy = .next t) ∧ ∃ s, State.load Config.reference program = .next s :=
  ⟨busy_steps, exists_next (by decide)⟩

/-- A load and a store, each with an address in memory, misaligned, and outside memory. -/
theorem witness_AddressResolution :
    let s := oneIn (.lw 8 0 0x100)
    let u := oneIn (.sw 0 8 0x100)
    s.lsq = [] ++ newLsqEntry .load 0 0 :: [] ∧ u.lsq = [] ++ newLsqEntry .store 0 0 :: [] ∧
      (newLsqEntry .load 0 0).rob = (resolver 0x100).rob ∧ (resolver 0x100).rob < s.rob.length ∧
      addressFault 4096 ((resolver 0xFFC).a + (resolver 0xFFC).imm) = none ∧
      addressFault 4096 ((resolver 0x1002).a + (resolver 0x1002).imm) = some .misalignedAccess ∧
      addressFault 4096 ((resolver 0x1000).a + (resolver 0x1000).imm) = some .memoryFault := by decide

theorem witness_UnresolvedStoreHoldsLoads :
    oldestEligible [] loadBehindStore.lsq =
      some (⟨1, 1, .load, true, 0x100, none, 0, .ready⟩, [⟨0, 0, .store, true, 0x100, none, 5, .waitAddr⟩]) := by decide

/-- A load behind a store whose address is not resolved: none may start. -/
theorem witness_UnresolvedStoreHoldsLoads_none :
    let q : List LsqEntry := [newLsqEntry .store 0 0, ⟨1, 1, .load, true, 0x100, none, 0, .ready⟩]
    oldestEligible [] q = none ∧ State.reset.mport.busy = false ∧
      (∀ pre x post, State.reset.lsq = pre ++ x :: post → ¬ MayStart pre x) ∧
      (0x104#32).toNat % 4 = 0 ∧ (0x100#32).toNat % 4 = 0 := by
  refine ⟨by decide, by decide, fun pre x post h => ?_, by decide, by decide⟩
  cases pre <;> cases h

theorem witness_LoadsForwardOrRead_forward :
    loadBehindStore.mport.busy = false ∧
      oldestEligible [] loadBehindStore.lsq =
        some (⟨1, 1, .load, true, 0x100, none, 0, .ready⟩, [] ++ ⟨0, 0, .store, true, 0x100, none, 5, .waitAddr⟩ :: []) ∧
      (⟨0, 0, .store, true, 0x100, none, 5, .waitAddr⟩ : LsqEntry).addr = 0x100 ∧
      loadBehindStore.memoryStage.lsq.map (·.lstate) = [.waitAddr, .accessing] := by decide

/-- A load that misses, and the same load after its line has been filled. -/
theorem witness_LoadsForwardOrRead_read :
    let s := loadAlone
    let u := { loadAlone with dcache := (cacheAccess s.cfg.dcache false s.dcache 0x100).2 }
    (s.mport.busy = false ∧ oldestEligible [] s.lsq = some (⟨1, 1, .load, true, 0x100, none, 0, .ready⟩, []) ∧
      hitWay s.cfg.dcache s.dcache 0x100 = none ∧ 2 ≤ s.cfg.dcache.miss) ∧
    (u.mport.busy = false ∧ hitWay u.cfg.dcache u.dcache 0x100 ≠ none) := by decide

/-- A port with two ticks left, one with one tick left, and a load that misses a cache whose misses take one tick. -/
theorem witness_LoadsForwardOrRead_port :
    let two := { busy with mport := ⟨true, 2, 0, 0, 5⟩ }
    let one := { busy with mport := ⟨true, 1, 0, 0, 5⟩ }
    let quick := { loadAlone with cfg := { Config.reference with dcache := { Config.reference.dcache with miss := 1 } } }
    (two.mport.busy = true ∧ two.mport.remaining = 0 + 2) ∧ (one.mport.busy = true ∧ one.mport.remaining = 1) ∧
    (quick.mport.busy = false ∧
      oldestEligible [] quick.lsq = some (⟨1, 1, .load, true, 0x100, none, 0, .ready⟩, []) ∧
      hitWay quick.cfg.dcache quick.dcache 0x100 = none ∧ quick.cfg.dcache.miss = 1) := by decide

/-- A load started on a miss of one tick posts in that tick. -/
theorem test_quick_miss_posts :
    let s := { loadAlone with cfg := { Config.reference with dcache := { Config.reference.dcache with miss := 1 } } }
    s.memoryStage.cdbq.length = 1 ∧ s.memoryStage.mport.busy = false ∧ s.memoryStage.metrics.stallDcacheMiss = 1 := by
  decide

/-- A station with a ready entry behind an older one that waits. -/
def station : List RsEntry :=
  [{ RsEntry.empty .alu with valid := true, seq := 3, a := ⟨false, 0, 2⟩ },
   { RsEntry.empty .alu with valid := true, seq := 5, a := ⟨true, 1, 0⟩, b := ⟨true, 2, 0⟩ }]

theorem witness_SelectsOldestReady : oldestReady station = some 1 ∧ oldestReady (station.take 1) = none := by decide

/-- A waiting entry and nothing ready; the same with a ready entry and a free unit; an empty machine. -/
theorem witness_SelectsOldestReady_hazard :
    let s := { State.reset with rs := ⟨station.take 1, [], []⟩ }
    let u := { State.reset with rs := ⟨station, [], []⟩ }
    (station.take 1).all (fun e => e.valid && !e.a.ready) = true ∧
      s.executeStage.metrics.stallRawHazard = 1 ∧ u.executeStage.metrics.stallRawHazard = 0 ∧
      State.reset.executeStage.metrics.stallRawHazard = 0 := by decide

/-- A busy unit and a free one: one entry is dispatched. -/
theorem witness_DispatchWithinFreeUnits :
    ∃ us rs, dispatchUnits 1 .alu [resolver 0, FuUnit.idle] station = (us, rs, 1) ∧
      ([resolver 0, FuUnit.idle] : List FuUnit)[0]? = some (resolver 0) ∧ (resolver 0).busy = true :=
  ⟨_, _, rfl, rfl, rfl⟩

/-- Two free units and two ready entries: the older goes to the first unit. -/
theorem witness_DispatchWithinFreeUnits_order :
    let rs := (station.drop 1) ++ [{ RsEntry.empty .alu with
      valid := true, seq := 4, a := ⟨true, 1, 0⟩, b := ⟨true, 2, 0⟩ }]
    let r := dispatchUnits 1 .alu [FuUnit.idle, FuUnit.idle] rs
    r.2.2 = 2 ∧ r.1.map (fun u => (u.busy, u.seq)) = [(true, 4), (true, 5)] := by decide

/-- Five pending results on a bus four wide: four are carried, one stays. -/
theorem witness_BusTakesLowestSequence :
    let s := { State.reset with cdbq := [5, 3, 4, 1, 2].map (fun n => resultOf n none) }
    resultOf 4 none ∈ (sortBySeq s.cdbq).take s.cfg.cdbWidth ∧ resultOf 5 none ∈ s.broadcastStage.cdbq := by decide

/-- Two results of different entries, one with an exception. -/
theorem witness_BusTakesLowestSequence_completed :
    let s := { busy with cdbq := [resultOf 0 none, { resultOf 1 (some .arithmeticOverflow) with rob := 1 }] }
    (((sortBySeq s.cdbq).take s.cfg.cdbWidth).map (·.rob)).Nodup ∧
      resultOf 0 none ∈ (sortBySeq s.cdbq).take s.cfg.cdbWidth ∧ (resultOf 0 none).rob < s.rob.length := by decide

/-- A waiting consumer of entry 0; a result with a value and one with an exception. -/
theorem witness_BroadcastWakesConsumers :
    let e : RsEntry := { RsEntry.empty .alu with valid := true, a := ⟨false, 0, 0⟩, b := ⟨true, 1, 0⟩ }
    let s := { busy with rs := ⟨[e], [], []⟩ }
    (resultOf 0 none).rob < s.rob.length ∧ (resultOf 0 none).exception = none ∧
      (resultOf 0 (some .arithmeticOverflow)).exception = some .arithmeticOverflow ∧
      (s.rs.get .alu)[0]? = some e ∧ e.valid = true := by decide

/-- The result of a load. -/
theorem witness_BroadcastWakesConsumers_load :
    let r := { resultOf 0 none with lsq := some 0 }
    r.rob < busy.rob.length ∧ r.lsq = some 0 ∧ (busy.broadcastOne r).lsq.map (·.lstate) = [.done] := by decide

/-- `addi` reads register 8, which a `lw` in flight renames. -/
theorem witness_AllocationRenames :
    let s := oneIn (.lw 8 0 0x100)
    (recordOf (.addi 9 8 1) 0x00400004).body = some (Instr.addi 9 8 1).record ∧ s.robTail < s.rob.length ∧
      (s.regEntry 8).ready = false ∧
      (∀ i, (s.regEntry i).ready = false → (s.regEntry i).tag ≠ s.robTail) := by decide

/-- A fetch fault record, and a store. -/
theorem witness_AllocationRenames_fault :
    (faultRecord 2 0).body = none ∧ State.reset.robTail < State.reset.rob.length ∧
      (recordOf (.sw 29 8 0) 0).body = some (Instr.sw 29 8 0).record ∧ (Instr.sw 29 8 0).record.op = .sw := by decide

/-- A full ROB, then a full station, then a full LSQ. -/
theorem witness_DecodeBackpressure :
    let f := recordOf (.lw 8 0 0x100) 0x00400000
    let s := { State.reset with fb := [f] }
    let full := { s with rs := ⟨[], [], List.replicate 8 { RsEntry.empty .lsu with valid := true }⟩ }
    (s.dl = [] ∧ s.fb = f :: [] ∧ 0 < s.cfg.issueWidth ∧ f.body = some (Instr.lw 8 0 0x100).record ∧
      opClass .lw = some .lsu) ∧
    s.cfg.robCap ≤ ({ s with robCount := 16 } : State).robCount ∧
    (full.robCount < full.cfg.robCap ∧ full.cfg.rsCap.get .lsu ≤ countValid (full.rs.get .lsu)) ∧
    (s.robCount < s.cfg.robCap ∧ countValid s.rs.lsu < s.cfg.rsCap.lsu ∧
      s.cfg.lsqCap ≤ (List.replicate 8 (newLsqEntry .load 0 0)).length) := by decide

/-- Two records with room for both; a third, when `W_i` is two, stays; and a record whose class the two have filled. -/
theorem witness_DecodeBackpressure_takes :
    let f := recordOf (.lw 8 0 0x100) 0x00400000
    let s := { State.reset with fb := [f, f, f] }
    let wide := { s with cfg := { Config.reference with issueWidth := 2 } }
    let small := { s with cfg := { Config.reference with rsCap := ⟨2, 2, 2⟩ } }
    (wide.dl = [] ∧ wide.decodeStage.fb = [f] ∧ wide.decodeStage.robCount = 2) ∧
      (small.dl = [] ∧ 2 < small.cfg.issueWidth ∧ small.decodeStage.fb = [f] ∧
        small.decodeStage.metrics.stallRsFull = 1) ∧ busy.dl ≠ [] := by decide

theorem witness_CacheFillsLine :
    1 ≤ Config.reference.dcache.sets ∧ 1 ≤ Config.reference.dcache.assoc ∧
      CacheShape Config.reference.dcache State.reset.dcache ∧ [CacheLine.mk true 0 false 1] ≠ [] :=
  ⟨by decide, by decide, ⟨by decide, by decide⟩, by decide⟩

/-- A set with a line that hits, and an address of the same set that misses. -/
theorem witness_CacheFillsLine_access :
    let g := Config.reference.dcache
    let c := (cacheAccess g false State.reset.dcache 0x100).2
    hitWay g c 0x100 = some 0 ∧ hitWay g c 0x300 = none ∧ cacheSet g 0x300 = cacheSet g 0x100 := by decide

theorem witness_InstructionCacheMissStalls :
    let s := loaded
    (s.fetch.stall = 0 ∧ s.fetch.blocked = false ∧ 0 < s.cfg.fetchWidth ∧ s.fb.length < s.cfg.fbCap ∧
      s.instrAt s.fetch.pc = some (.li 8 1) ∧ hitWay s.cfg.icache s.icache s.fetch.pc.toNat = none) ∧
    s.fetchStage.fetch.stall = 9 + 1 ∧ s.fetchStage.fetch.stallCause = .icacheMiss := by decide

/-- A stalled tick of cause target, and a fetch that is blocked at the pc after the text, which
names no record. -/
theorem witness_InstructionCacheMissStalls_other :
    let s := { loaded with fetch := ⟨0x00400000, 1, .target, false⟩ }
    let u := { loaded with fetch := ⟨0x00400008, 0, .icacheMiss, true⟩ }
    s.fetch.stall = 0 + 1 ∧ s.fetch.stallCause = .target ∧ u.fetch.stall = 0 ∧ u.fetch.blocked = true := by decide

/-- With its line in the I-cache, fetch delivers both records and then a fetch fault record. -/
theorem witness_FetchDeliversInPathOrder :
    let s := { loaded with icache := (cacheAccess loaded.cfg.icache false loaded.icache 0x00400000).2 }
    s.fetch.stall = 0 ∧ s.fetch.blocked = false ∧
      s.fetchStage.fb.map (fun f => (f.pc, f.body.isSome)) =
        [(0x00400000, true), (0x00400004, true), (0x00400008, false)] := by decide

/-- Each way a pc names no record, with room in the buffer; and a pc whose line is in the I-cache. -/
theorem witness_FetchDeliversInPathOrder_cases :
    let s := loaded
    let u := { loaded with icache := (cacheAccess loaded.cfg.icache false loaded.icache 0x00400000).2 }
    (s.fetch.stall = 0 ∧ s.fetch.blocked = false ∧ 0 < s.cfg.fetchWidth ∧ s.fb.length < s.cfg.fbCap) ∧
    (0x00400002#32).toNat % 4 ≠ 0 ∧ (0x003FFFFC#32).toNat < s.cfg.textBase.toNat ∧
    s.cfg.textBase.toNat + 4 * s.imem.length ≤ (0x00400008#32).toNat ∧
    u.instrAt u.fetch.pc = some (.li 8 1) ∧ hitWay u.cfg.icache u.icache u.fetch.pc.toNat ≠ none := by decide

/-- A packet that ends at `W_f`, at a full buffer, at a fetch fault record, and at a miss. -/
theorem witness_FetchDeliversInPathOrder_ends :
    let u := { loaded with icache := (cacheAccess loaded.cfg.icache false loaded.icache 0x00400000).2 }
    let narrow := { u with cfg := { Config.reference with fetchWidth := 1 } }
    let short := { u with cfg := { Config.reference with fbCap := 1 } }
    (narrow.fetchStage.fb.length = 1 ∧ narrow.fetchStage.fetch.stall = 0) ∧ short.fetchStage.fb.length = 1 ∧
      u.fetchStage.fb.getLast?.map (·.body) = some none ∧
      (loaded.fetchStage.fb = [] ∧ loaded.fetchStage.fetch.stall = loaded.cfg.icache.miss) := by decide

/-- A `j` whose pc is not in the BTB ends its packet and stalls fetch one tick of cause target, with one access and one
hit; a packet that ends at a fetch fault record counts its two records only, and one that misses the access alone. -/
theorem witness_FetchDeliversInPathOrder_target :
    let u := { loaded with icache := (cacheAccess loaded.cfg.icache false loaded.icache 0x00400000).2 }
    let s := { u with imem := [encode (.j 0x00400000), encode .halt] }
    (s.fetchStage.fb.map (·.predTaken) = [true] ∧ s.fetchStage.fetch = ⟨0x00400000, 1, .target, false⟩) ∧
      (s.fetchStage.metrics.icacheAccesses = 1 ∧ s.fetchStage.metrics.icacheHits = 1) ∧
      (u.fetchStage.metrics.icacheAccesses = 2 ∧ u.fetchStage.metrics.icacheHits = 2) ∧
      (loaded.fetchStage.metrics.icacheAccesses = 1 ∧ loaded.fetchStage.metrics.icacheHits = 0) := by decide

/-- A predictor that knows one target, and one whose counters predict taken. -/
def knowing : Predictor := btbInsert State.reset.pred 0x00400000 0x00400010
/-- Counters at 2, where a prediction turns to taken. -/
def takenCounters : Predictor := { State.reset.pred with pht := List.replicate 16 2#2 }

/-- Each clause at its boundary: counters 1 and 2, a BTB hit and a miss, each kind of instruction. -/
theorem witness_PredictionRules :
    let c := Config.reference
    isControl (Instr.nop).record.op = false ∧ isConditional (Instr.beq 0 0 0).record.op = true ∧
      c.bpType ≠ .alwaysTaken ∧ (phtAt State.reset.pred (phtIndex c 0 0)).toNat < 2 ∧
      2 ≤ (phtAt takenCounters (phtIndex c 0 0)).toNat ∧ (Instr.jr 31).record.op = .jr ∧
      (Instr.jal 0).record.op = .jal ∧ btbFind State.reset.pred 0x00400000 = none ∧
      isControl (Instr.j 0).record.op = true ∧ isConditional (Instr.j 0).record.op = false ∧
      btbFind knowing 0x00400000 = some 0 ∧ knowing.btb[0]? = some ⟨true, 0x00400000, 0x00400010, 1⟩ := by decide

/-- A conditional branch whose counter is 2 and whose pc is in the BTB; the two predictors with an index. -/
theorem witness_PredictionRules_hit :
    let c := Config.reference
    let p := { knowing with pht := takenCounters.pht }
    isControl (Instr.beq 0 0 0).record.op = true ∧ 2 ≤ (phtAt p (phtIndex c 0x00400000 p.ghr)).toNat ∧
      btbFind p 0x00400000 = some 0 ∧ c.bpType = .bimodal := by decide

/-- A prediction that hits the BTB stamps the entry. -/
theorem test_prediction_stamps_entry :
    (predict Config.reference knowing (Instr.jr 31).record 0x00400000).2.btb[0]? =
      some ⟨true, 0x00400000, 0x00400010, 2⟩ := by decide

theorem witness_BtbRemembersTargets :
    knowing.btb ≠ [] ∧ btbSlot knowing 0x00400004 = 1 ∧
      knowing.btb[0]? = some ⟨true, 0x00400000, 0x00400010, 1⟩ := by decide

/-- The slot of an insert: the entry for the pc, the first invalid one, and of a full BTB the one least recently stamped;
a lookup that hits the first entry, and one that finds none. -/
theorem witness_BtbRemembersTargets_slot :
    let full : Predictor := { knowing with btb := [⟨true, 4, 0, 7⟩, ⟨true, 8, 0, 3⟩, ⟨true, 12, 0, 3⟩] }
    btbSlot knowing 0x00400000 = 0 ∧ btbSlot knowing 0x00400004 = 1 ∧ btbSlot full 16 = 1 ∧
      (full.btb.all (fun e => e.valid && e.pc != 16)) = true ∧ btbFind full 12 = some 2 ∧
      btbLookup full 16 = (none, full) := by decide

/-- A conditional branch with a taken and one with a not-taken outcome, and a jump. -/
theorem witness_PredictorTraining :
    let e := headMispredicted.headEntry
    e.op = some .beq ∧ isConditional .beq = true ∧ Config.reference.bpType ≠ .alwaysTaken ∧
      phtIndex Config.reference e.pc e.ghrSnap < State.reset.pred.pht.length ∧ e.actualTaken = true ∧
      (oneIn (.beq 0 0 0)).headEntry.actualTaken = false ∧ (oneIn (.j 0)).headEntry.op = some .j ∧
      isConditional .j = false ∧ State.reset.pred.btb ≠ [] ∧ 3 ≠ phtIndex Config.reference e.pc e.ghrSnap ∧
      e.isCtl = true := by decide

theorem witness_ResultsRatios :
    let s := { headMispredicted.commitStage with cycle := 1 }
    0 < s.cycle ∧ State.reset.metrics.branchPredictions = 0 ∧ 0 < s.metrics.branchPredictions ∧
      s.metrics.branchMispredictions ≤ s.metrics.branchPredictions := by decide

theorem witness_PipelineEqualsSequential :
    ∃ s₀ s, State.load Config.reference program = .next s₀ ∧ Host.Core.run Sys2Proof.core 1 s₀ = .next s :=
  let ⟨s₀, h₀⟩ := witness_LoadedStateMeetsInvariants
  ⟨s₀, by
    have h : nextMeets (match State.load Config.reference program with
      | .next s => Host.Core.run Sys2Proof.core 1 s
      | .fault r => .fault r
      | .refused r => .refused r) (fun _ => true) = true := by decide
    rw [h₀] at h
    obtain ⟨s, hs⟩ := exists_next h
    exact ⟨s, h₀, hs⟩⟩

end Sys2Proof.Tests
end

section
/-!
SUPPORT. What a whole tick and a sequential step leave alone: the configuration, the instruction array and the driver (R9,
R29, R62; assumption log 1).
-/

namespace Sys2Proof.Machine

/-! ### One tick -/

@[simp] theorem State.tick_cfg (s : State) : s.tick.cfg = s.cfg := by simp [State.tick]
@[simp] theorem State.tick_imem (s : State) : s.tick.imem = s.imem := by simp [State.tick]
@[simp] theorem State.tick_driver (s : State) : s.tick.driver = s.driver := by simp [State.tick]

@[simp] theorem State.driverTick_cfg (s : State) : s.driverTick.cfg = s.cfg := by simp [State.driverTick]
@[simp] theorem State.driverTick_imem (s : State) : s.driverTick.imem = s.imem := by simp [State.driverTick]
@[simp] theorem State.driverTick_driver (s : State) : s.driverTick.driver = s.driver := by simp [State.driverTick]

/-! ### One sequential step -/

/-- None of the four ends of an instruction's meaning writes the configuration, the instruction array or the driver. -/
theorem Ends.fixed {s t : State} (h : Ends s t) : t.cfg = s.cfg ∧ t.imem = s.imem ∧ t.driver = s.driver := by
  cases h with
  | raised c addr => exact ⟨rfl, rfl, rfl⟩
  | retired rd v next => simp
  | stored ea v next => simp
  | halted next => simp

theorem sequentialStep_next_ends {s t : State} (h : sequentialStep s = .next t) : Ends s t := by
  obtain ⟨u, hu, he⟩ := sequentialStep_ends s
  rw [hu] at h
  cases h
  exact he

/-! ### The obligation -/

/-- Settles O25: a step is one tick or one sequential step, and neither writes the three fields. -/
theorem configurationAndTextFixed : Obligations.ConfigurationAndTextFixed := by
  intro s t h
  obtain ⟨-, -, hstep⟩ := step_next h
  rcases hstep with ⟨-, htick⟩ | ⟨-, hseq⟩
  · rw [htick]
    exact ⟨s.driverTick_cfg, s.driverTick_imem, s.driverTick_driver⟩
  · exact (sequentialStep_next_ends hseq).fixed

end Sys2Proof.Machine
end

section
/-!
SUPPORT. What the five stages other than commit leave alone: the committed count, the register values and the rest of the
architectural state (R15, R51, R143, R144). The fields no stage but commit writes at all have their frames above; what is
left is the count, which sits among counters these stages do move, and the registers, whose rename map decode moves.
-/

namespace Sys2Proof.Machine

/-! ### The committed count: the memory stage -/

theorem State.dcacheAccess_committed (s : State) (w : Bool) (a : Word) :
    (s.dcacheAccess w a).2.metrics.instructionsCommitted = s.metrics.instructionsCommitted := rfl

theorem State.loadAccess_committed (s : State) (a : Word) (f : Option LsqEntry) :
    (s.loadAccess a f).2.2.metrics.instructionsCommitted = s.metrics.instructionsCommitted := by
  cases f with
  | some st => rfl
  | none =>
    simp only [State.loadAccess]
    split
    · exact s.dcacheAccess_committed false a
    · exact s.dcacheAccess_committed false a

@[simp] theorem State.startLoad_committed (s : State) :
    s.startLoad.metrics.instructionsCommitted = s.metrics.instructionsCommitted := by
  unfold State.startLoad
  split
  · rfl
  · split
    · rfl
    · exact s.loadAccess_committed _ _

@[simp] theorem State.memoryStage_committed (s : State) :
    s.memoryStage.metrics.instructionsCommitted = s.metrics.instructionsCommitted := by
  simp [State.memoryStage]

/-! ### The committed count: the execute stage -/

@[simp] theorem State.countRaw_committed (s : State) (n : Nat) :
    (s.countRaw n).metrics.instructionsCommitted = s.metrics.instructionsCommitted := by
  unfold State.countRaw
  split <;> rfl

@[simp] theorem State.selectStage_committed (s : State) :
    s.selectStage.metrics.instructionsCommitted = s.metrics.instructionsCommitted := by
  simp [State.selectStage]

@[simp] theorem State.countBusy_committed (s : State) (k : FuClass) (j : Nat) :
    (s.countBusy k j).metrics.instructionsCommitted = s.metrics.instructionsCommitted := rfl

@[simp] theorem State.advanceUnit_committed (s : State) (k : FuClass) (j : Nat) :
    (s.advanceUnit k j).metrics.instructionsCommitted = s.metrics.instructionsCommitted := by
  unfold State.advanceUnit
  split
  · dsimp only
    split <;> simp
  · rfl

@[simp] theorem advanceFrom_committed (k : FuClass) (n j : Nat) (s : State) :
    (advanceFrom k n j s).metrics.instructionsCommitted = s.metrics.instructionsCommitted := by
  induction n generalizing j s with
  | zero => rfl
  | succ n ih => simp [advanceFrom, ih]

@[simp] theorem State.advanceStage_committed (s : State) :
    s.advanceStage.metrics.instructionsCommitted = s.metrics.instructionsCommitted := by
  simp [State.advanceStage, State.advanceClass]

@[simp] theorem State.executeStage_committed (s : State) :
    s.executeStage.metrics.instructionsCommitted = s.metrics.instructionsCommitted := by
  simp [State.executeStage]

/-! ### The decode stage -/

@[simp] theorem decodeLoop_committed (n : Nat) (r : Room) (s : State) :
    (decodeLoop n r s).metrics.instructionsCommitted = s.metrics.instructionsCommitted := by
  induction n generalizing r s with
  | zero => rfl
  | succ n ih =>
    unfold decodeLoop
    (repeat' split) <;> simp [ih]

@[simp] theorem State.decodeStage_committed (s : State) :
    s.decodeStage.metrics.instructionsCommitted = s.metrics.instructionsCommitted := by
  unfold State.decodeStage
  split <;> simp

/-- Allocation renames a register and moves no value (R93). -/
theorem State.reg_allocate (s : State) (f : FetchRec) (r : Reg) : (s.allocate f).reg r = s.reg r := by
  unfold State.reg
  rw [State.regEntry_allocate]
  (repeat' split) <;> rfl

theorem reg_decodeLoop (n : Nat) (room : Room) (s : State) (r : Reg) : (decodeLoop n room s).reg r = s.reg r := by
  induction n generalizing room s with
  | zero => rfl
  | succ n ih =>
    unfold decodeLoop
    split
    · rfl
    · split
      · rfl
      · split
        · rfl
        · split
          · rfl
          · rw [ih, State.reg_allocate]
            rfl

theorem State.reg_decodeStage (s : State) (r : Reg) : s.decodeStage.reg r = s.reg r := by
  unfold State.decodeStage
  split
  · exact reg_decodeLoop ..
  · rfl

/-! ### The committed count: the fetch stage -/

theorem State.icacheRead_committed (s : State) (p : Word) :
    (s.icacheRead p).2.metrics.instructionsCommitted = s.metrics.instructionsCommitted := rfl

@[simp] theorem fetchLoop_committed (n : Nat) (s : State) :
    (fetchLoop n s).metrics.instructionsCommitted = s.metrics.instructionsCommitted := by
  induction n generalizing s with
  | zero => rfl
  | succ n ih =>
    unfold fetchLoop
    split
    · rfl
    · split
      · rfl
      · rename_i i _
        have hread := s.icacheRead_committed s.fetch.pc
        rcases hr : s.icacheRead s.fetch.pc with ⟨hit, t⟩
        rw [hr] at hread
        cases hit with
        | false => exact hread
        | true =>
          have hdeliver := t.deliver_metrics i.record s.fetch.pc
          rcases hd : t.deliver i.record s.fetch.pc with ⟨ends, u⟩
          rw [hd] at hdeliver
          have hu : u.metrics.instructionsCommitted = s.metrics.instructionsCommitted :=
            (congrArg _ hdeliver).trans hread
          cases ends with
          | true => simpa [hd] using hu
          | false => simpa [hd, ih] using hu

@[simp] theorem State.fetchStalled_committed (s : State) :
    s.fetchStalled.metrics.instructionsCommitted = s.metrics.instructionsCommitted := by
  unfold State.fetchStalled
  dsimp only
  split <;> rfl

@[simp] theorem State.fetchStage_committed (s : State) :
    s.fetchStage.metrics.instructionsCommitted = s.metrics.instructionsCommitted := by
  unfold State.fetchStage
  (repeat' split) <;> simp

/-! ### The architectural state -/

/-- The architectural state of R24 lies in the register file, memory and `arch_pc`. -/
theorem SameArch.of_fields {s t : State} (hrf : t.rf = s.rf) (hmem : t.mem = s.mem) (hpc : t.archPc = s.archPc) :
    SameArch s t where
  regs := State.reg_congr hrf
  bytes := State.readByte_congr hmem
  pc := hpc

theorem State.sameArch_memoryStage (s : State) : SameArch s s.memoryStage :=
  .of_fields s.memoryStage_rf s.memoryStage_mem s.memoryStage_archPc

theorem State.sameArch_executeStage (s : State) : SameArch s s.executeStage :=
  .of_fields s.executeStage_rf s.executeStage_mem s.executeStage_archPc

theorem State.sameArch_issueStage (s : State) : SameArch s s.issueStage :=
  .of_fields s.issueStage_rf s.issueStage_mem s.issueStage_archPc

theorem State.sameArch_decodeStage (s : State) : SameArch s s.decodeStage where
  regs := s.reg_decodeStage
  bytes := State.readByte_congr s.decodeStage_mem
  pc := s.decodeStage_archPc

theorem State.sameArch_fetchStage (s : State) : SameArch s s.fetchStage :=
  .of_fields s.fetchStage_rf s.fetchStage_mem s.fetchStage_archPc

/-! ### The obligation -/

/-- Settles O36, stage by stage: decode alone touches the register file, and only its rename map. -/
theorem onlyCommitChangesArchState : Obligations.OnlyCommitChangesArchState := by
  intro s
  refine ⟨⟨s.sameArch_memoryStage, s.sameArch_executeStage, s.sameArch_issueStage, s.sameArch_decodeStage,
    s.sameArch_fetchStage⟩, ?_⟩
  simp only [List.forall_mem_cons, List.not_mem_nil, false_implies, implies_true, and_true]
  exact ⟨⟨s.memoryStage_outcome, s.memoryStage_committed⟩, ⟨s.executeStage_outcome, s.executeStage_committed⟩,
    ⟨s.issueStage_outcome, congrArg _ s.issueStage_metrics⟩, ⟨s.decodeStage_outcome, s.decodeStage_committed⟩,
    s.fetchStage_outcome, s.fetchStage_committed⟩

end Sys2Proof.Machine
end

section
/-!
SUPPORT. The inductions over a step, packaged once: a property of states that each part of a step keeps is kept by the
whole step. One rule for the step (R85, R87, R98) and one for each loop of a stage (R90, R104, R120, R140).
-/

namespace Sys2Proof.Machine

/-! ### One step -/

/-- What each part of a step must do for the step to keep `P`: the stages of a tick in their order (R85), the end of a tick,
which writes the cycle and the outcome alone (R87), and the ends of a sequential step (R98). -/
structure KeptByParts (P : State → Prop) : Prop where
  ends : ∀ {s t : State}, Ends s t → P s → P t
  commit : ∀ s : State, P s → P s.commitStage
  memory : ∀ s : State, P s → P s.memoryStage
  execute : ∀ s : State, P s → P s.executeStage
  issue : ∀ s : State, P s → P s.issueStage
  decode : ∀ s : State, P s → P s.decodeStage
  fetch : ∀ s : State, P s → P s.fetchStage
  clock : ∀ (s : State) (n : Nat) (o : RunOutcome), P s → P { s with cycle := n, outcome := o }

theorem KeptByParts.tick {P : State → Prop} (h : KeptByParts P) (s : State) (hs : P s) : P s.tick :=
  h.clock _ _ _ (h.fetch _ (h.decode _ (h.issue _ (h.execute _ (h.memory _ (h.commit _ hs))))))

theorem KeptByParts.limitCheck {P : State → Prop} (h : KeptByParts P) (s : State) (hs : P s) : P s.limitCheck := by
  unfold State.limitCheck
  split
  · exact h.clock s s.cycle .limit hs
  · exact hs

/-- A property that every part of a step keeps is kept by the step. -/
theorem KeptByParts.step {P : State → Prop} (h : KeptByParts P) {s t : State} (hst : step s = .next t) (hs : P s) :
    P t := by
  obtain ⟨-, -, ⟨-, htick⟩ | ⟨-, hseq⟩⟩ := step_next hst
  · rw [htick]
    exact h.limitCheck _ (h.tick s hs)
  · exact h.ends (sequentialStep_next_ends hseq) hs

/-- Whatever a sequential step ends in, the engine is as before. -/
theorem Ends.sameEngine {s t : State} (h : Ends s t) : SameEngine s t := by
  cases h with
  | raised c addr => exact s.sameEngine_raiseSequential c addr
  | retired rd v next => exact s.sameEngine_retireSequential rd v next
  | stored ea v next => exact { (s.writeWord ea v).sameEngine_retireSequential 0 0 next with }
  | halted next => exact { s.sameEngine_retireSequential 0 0 next with }

/-! ### The commit loop -/

/-- A property kept by each retirement, by the squash after one, and by a change of the outcome, is kept by the commit
stage (R140). -/
theorem State.commitStage_keeps {P : State → Prop}
    (retire : ∀ (s : State) (w : List Reg) (e : RobEntry), s.headAction w = .retire e → P s → P (s.commitOne e))
    (squash : ∀ (s : State) (w : List Reg) (e : RobEntry), s.headAction w = .retire e → P s →
      P ((s.commitOne e).squashAfter e))
    (outcome : ∀ (s : State) (o : RunOutcome), P s → P { s with outcome := o }) (s : State) (hs : P s) :
    P s.commitStage := by
  suffices loop : ∀ (n : Nat) (w : List Reg) (s : State), P s → P (commitLoop n w s) from loop _ _ _ hs
  intro n
  induction n with
  | zero => exact fun _ _ hs => hs
  | succ n ih =>
    intro w s hs
    unfold commitLoop
    split
    · exact hs
    · exact outcome s _ hs
    · rename_i e hact
      split
      · exact outcome _ _ (retire s w e hact hs)
      · split
        · exact squash s w e hact hs
        · exact ih _ _ (retire s w e hact hs)

/-! ### The execute stage -/

/-- A property kept by selection, by each unit's advance and by the broadcast of each result is kept by the execute stage
(R116, R120). -/
theorem State.executeStage_keeps {P : State → Prop}
    (select : ∀ s : State, P s → P s.selectStage)
    (unit : ∀ (s : State) (k : FuClass) (j : Nat), P s → P (s.advanceUnit k j))
    (queue : ∀ (s : State) (q : List CdbResult), P s → P { s with cdbq := q })
    (broadcast : ∀ (s : State) (r : CdbResult), P s → P (s.broadcastOne r)) (s : State) (hs : P s) :
    P s.executeStage := by
  have advance : ∀ (k : FuClass) (n j : Nat) (s : State), P s → P (advanceFrom k n j s) := by
    intro k n
    induction n with
    | zero => exact fun _ _ hs => hs
    | succ n ih => exact fun j s hs => ih _ _ (unit s k j hs)
  have all : ∀ (l : List CdbResult) (s : State), P s → P (broadcastAll l s) := by
    intro l
    induction l with
    | nil => exact fun _ hs => hs
    | cons r l ih => exact fun s hs => ih _ (broadcast s r hs)
  exact all _ _ (queue _ _ (advance _ _ _ _ (advance _ _ _ _ (advance _ _ _ _ (select s hs)))))

/-! ### One unit's advance -/

/-- A unit after its part of the advance step: a busy one loses a tick, and is free when none is left (R116). -/
def FuUnit.ticked (u : FuUnit) : FuUnit :=
  if u.busy = true then { u with remaining := u.remaining - 1, busy := u.remaining - 1 != 0 } else u

/-- Does the unit finish in the next advance step? -/
def FuUnit.finishes (u : FuUnit) : Bool := u.busy && u.remaining - 1 == 0

/-- All that a unit's part of the advance step can do: the unit finishes, it counts down, or it is free (R116, R117). -/
theorem State.advanceUnit_cases (s : State) (k : FuClass) (j : Nat) :
    (s.unitAt k j).finishes = true ∧
        s.advanceUnit k j = ((s.countBusy k j).finishUnit k (s.unitAt k j)).setUnit k j (s.unitAt k j).ticked ∨
      (s.unitAt k j).finishes = false ∧ s.advanceUnit k j = (s.countBusy k j).setUnit k j (s.unitAt k j).ticked ∨
      (s.unitAt k j).finishes = false ∧ (s.unitAt k j).busy = false ∧ s.advanceUnit k j = s := by
  unfold State.advanceUnit
  split
  · rename_i hbusy
    dsimp only
    split
    · rename_i hlast
      exact .inl ⟨by simp [FuUnit.finishes, hbusy, hlast], by simp [FuUnit.ticked, hbusy, hlast]⟩
    · rename_i hmore
      exact .inr (.inl ⟨by simp [FuUnit.finishes, hmore],
        by rw [FuUnit.ticked, if_pos hbusy, bne_iff_ne.2 hmore, ← hbusy]⟩)
  · rename_i hfree
    exact .inr (.inr ⟨by simp [FuUnit.finishes, hfree], by simpa using hfree, rfl⟩)

/-! ### The issue loop -/

/-- A property kept when a record leaves the latch and when a station is written is kept by the issue stage (R95). -/
theorem State.issueStage_keeps {P : State → Prop}
    (pop : ∀ (s : State) (d : DecRec) (rest : List DecRec), s.dl = d :: rest → P s → P { s with dl := rest })
    (station : ∀ (s : State) (k : FuClass) (f : RsEntry → RsEntry) (j : Nat), P s →
      P { s with rs := s.rs.set k (updateAt f (s.rs.get k) j) }) (s : State) (hs : P s) : P s.issueStage := by
  suffices loop : ∀ (n : Nat) (s : State), P s → P (issueLoop n s) from loop _ _ hs
  intro n
  induction n with
  | zero => exact fun _ hs => hs
  | succ n ih =>
    intro s hs
    unfold issueLoop
    split
    · exact hs
    · rename_i d rest hdl
      have popped := pop s d rest hdl hs
      split
      · exact ih _ popped
      · split
        · exact ih _ popped
        · split
          · exact hs
          · exact ih _ (station _ _ _ _ popped)

/-! ### The decode loop -/

/-- There is room for a record: what the decode loop has checked before it takes one (R90). -/
structure Room.Fits (r : Room) (b : Option InstrRecord) : Prop where
  rob : r.rob ≠ 0
  lsq : bodyIs isMemory b = true → r.lsq ≠ 0

/-- A property of a state and the room left that each record decode takes keeps, and each stall it counts, is kept by the
decode loop (R90); `n` is how many records the loop may still take. -/
theorem decodeLoop_keeps {P : Nat → Room → State → Prop}
    (take : ∀ (n : Nat) (r : Room) (s : State) (f : FetchRec) (rest : List FetchRec), s.fb = f :: rest →
      r.Fits f.body → P (n + 1) r s → P n (r.take f.body) (State.allocate { s with fb := rest } f))
    (stall : ∀ (n : Nat) (r : Room) (s : State) (g : Metrics → Metrics), (∀ m, (g m).fuBusy = m.fuBusy) →
      P n r s → P n r (s.count g)) (n : Nat) (r : Room) (s : State) (hs : P n r s) :
    ∃ n' r', P n' r' (decodeLoop n r s) := by
  induction n generalizing r s with
  | zero => exact ⟨0, r, hs⟩
  | succ n ih =>
    unfold decodeLoop
    split
    · exact ⟨_, _, hs⟩
    · rename_i f rest hfb
      split
      · exact ⟨_, _, stall _ _ s _ (fun _ => rfl) hs⟩
      · rename_i hrob
        split
        · exact ⟨_, _, stall _ _ s _ (fun _ => rfl) hs⟩
        · split
          · exact ⟨_, _, stall _ _ s _ (fun _ => rfl) hs⟩
          · rename_i hlsq
            exact ih _ _ (take n r s f rest hfb ⟨hrob, fun hm h0 => hlsq ⟨hm, h0⟩⟩ hs)

/-- A property that each record decode takes keeps, and each stall it counts, is kept by the decode stage. -/
theorem State.decodeStage_keeps {P : State → Prop}
    (take : ∀ (s : State) (f : FetchRec) (rest : List FetchRec), s.fb = f :: rest → P s →
      P (State.allocate { s with fb := rest } f))
    (stall : ∀ (s : State) (g : Metrics → Metrics), (∀ m, (g m).fuBusy = m.fuBusy) → P s → P (s.count g))
    (s : State) (hs : P s) : P s.decodeStage := by
  unfold State.decodeStage
  split
  · obtain ⟨_, _, h⟩ := decodeLoop_keeps (P := fun _ _ s => P s) (fun _ _ s f rest hfb _ => take s f rest hfb)
      (fun _ _ => stall) s.cfg.issueWidth s.room s hs
    exact h
  · exact hs

/-! ### The fetch loop -/

/-- A property kept by a write of the fetch state, by a read of the I-cache, by the record a fetch delivers into a buffer
with room, and by the count of a stall, is kept by the fetch stage (R103, R104). -/
theorem State.fetchStage_keeps {P : State → Prop}
    (fault : ∀ s : State, s.fb.length < s.cfg.fbCap → P s →
      P { s with fb := s.fb ++ [faultRecord s.fetch.pc s.pred.ghr] })
    (fetch : ∀ (s : State) (f : FetchState), P s → P { s with fetch := f })
    (read : ∀ (s : State) (p : Word), P s → P (s.icacheRead p).2)
    (deliver : ∀ (s : State) (r : InstrRecord) (p : Word), s.fb.length < s.cfg.fbCap → P s → P (s.deliver r p).2)
    (stall : ∀ (s : State) (g : Metrics → Metrics), (∀ m, (g m).fuBusy = m.fuBusy) → P s → P (s.count g))
    (s : State) (hs : P s) : P s.fetchStage := by
  have loop : ∀ (n : Nat) (s : State), P s → P (fetchLoop n s) := by
    intro n
    induction n with
    | zero => exact fun _ hs => hs
    | succ n ih =>
      intro s hs
      unfold fetchLoop
      split
      · exact hs
      · rename_i hroom
        have room : s.fb.length < s.cfg.fbCap := Nat.lt_of_not_le hroom
        split
        · exact fetch _ _ (fault s room hs)
        · rename_i i _
          have hread := read s s.fetch.pc hs
          have hdeliver := deliver _ i.record s.fetch.pc (by simpa using room) hread
          split
          · rename_i t ht
            rw [ht] at hread
            exact fetch t _ hread
          · rename_i t ht
            rw [ht] at hdeliver
            split
            · rename_i u hu
              rw [hu] at hdeliver
              exact hdeliver
            · rename_i u hu
              rw [hu] at hdeliver
              exact ih u hdeliver
  have stalled : P s.fetchStalled := by
    refine stall { s with fetch := { s.fetch with stall := s.fetch.stall - 1 } }
      (fun m => if s.fetch.stallCause = .icacheMiss then { m with stallIcacheMiss := m.stallIcacheMiss + 1 } else m)
      (fun m => ?_) (fetch _ _ hs)
    split <;> rfl
  unfold State.fetchStage
  split
  · exact stalled
  · split
    · exact hs
    · exact loop _ _ hs

end Sys2Proof.Machine
end

section
/-!
SUPPORT. Sequence numbers (R43).
-/

namespace Sys2Proof.Machine

/-! ### Sequence numbers -/

/-- The latch after an allocation: one record more, with the sequence number the state held (R91). -/
theorem State.allocate_dl (s : State) (f : FetchRec) : ∃ d, (s.allocate f).dl = s.dl ++ [d] ∧ d.seq = s.seqNext := by
  simp [State.allocate]

theorem Ends.seqNext_le {s t : State} (h : Ends s t) : s.seqNext ≤ t.seqNext := by
  cases h with
  | raised c addr => exact le_refl _
  | retired rd v next => exact Nat.le_succ _
  | stored ea v next => exact Nat.le_succ _
  | halted next => exact Nat.le_succ _

/-- Decode alone moves `seq_next` in a tick, and raises it. -/
theorem keptByParts_le_seqNext (n : Nat) : KeptByParts (fun s => n ≤ s.seqNext) where
  ends h hs := le_trans hs h.seqNext_le
  commit s hs := by simpa using hs
  memory s hs := by simpa using hs
  execute s hs := by simpa using hs
  issue s hs := by simpa using hs
  decode := State.decodeStage_keeps (fun s f rest _ hs => by rw [State.allocate_seqNext]; exact Nat.le_succ_of_le hs)
    (fun _ _ _ hs => hs)
  fetch s hs := by simpa using hs
  clock _ _ _ hs := hs

/-- A state is loaded as the reset state of the program's text, data, entry and registers, with register 0 at 0 (R200). -/
theorem State.load_next {c : Config} {p : Program} {s : State} (h : State.load c p = .next s) :
    s = State.resetWith c p.text (p.placement c.byteOrder).image (p.entry c) p.initRegs ∧ p.initRegs[0] = 0 := by
  unfold State.load at h
  split at h
  · cases h
  · split at h
    · cases h
    · rename_i hv
      have hzero : p.initRegs[0] = 0 := by
        simp only [Bool.not_eq_false, Program.valid, Bool.and_eq_true, beq_iff_eq] at hv
        exact hv.2
      exact ⟨(Host.Outcome.next.inj h).symm, hzero⟩

/-- Settles O43: no part of a step lowers `seq_next`, and an allocation takes it. -/
theorem sequenceNumbersOnlyRise : Obligations.SequenceNumbersOnlyRise := by
  refine ⟨rfl, ?_, ?_, ?_, fun s e => rfl⟩
  · intro c p s h
    rw [(State.load_next h).1]
    rfl
  · exact fun s t h => (keptByParts_le_seqNext s.seqNext).step h (le_refl _)
  · exact fun s f => ⟨s.allocate_seqNext f, s.allocate_dl f⟩

end Sys2Proof.Machine
end

section
/-!
SUPPORT. Register 0 (R26).
-/

namespace Sys2Proof.Machine

/-- `ZeroHeld` depends on the register-file entry of register 0 alone. -/
theorem ZeroHeld.congr {s t : State} (h : t.regEntry 0 = s.regEntry 0) (hs : ZeroHeld s) : ZeroHeld t := by
  unfold ZeroHeld
  rw [h]
  exact hs

theorem State.regEntry_zero_commitOne (s : State) (e : RobEntry) : (s.commitOne e).regEntry 0 = s.regEntry 0 := by
  rw [State.regEntry_commitOne, State.regEntry_commitRegister, if_neg (fun h => h.2 rfl)]

theorem State.regEntry_zero_allocate (s : State) (f : FetchRec) : (s.allocate f).regEntry 0 = s.regEntry 0 := by
  rw [State.regEntry_allocate, if_neg (fun h => h.2 rfl)]

theorem Ends.regEntry_zero {s t : State} (h : Ends s t) : t.regEntry 0 = s.regEntry 0 := by
  have write : ∀ (s : State) (rd : Reg) (v : Word), (s.writeReg rd v).regEntry 0 = s.regEntry 0 := by
    intro s rd v
    rw [State.regEntry_writeReg, if_neg (fun h => h.2 h.1.symm)]
  cases h with
  | raised c addr => rfl
  | retired rd v next => exact write s rd v
  | stored ea v next => exact write (s.writeWord ea v) 0 0
  | halted next => exact write s 0 0

/-- A squash makes every register ready and moves no value, so register 0 stays held (R149). -/
theorem ZeroHeld.squashAfter {s : State} (hs : ZeroHeld s) (e : RobEntry) : ZeroHeld (s.squashAfter e) := by
  unfold ZeroHeld
  rw [State.regEntry_squashAfter]
  exact ⟨hs.1, rfl⟩

/-- Every write of the register file leaves the entry of register 0 alone, but the squash, which makes it ready. -/
theorem keptByParts_zeroHeld : KeptByParts ZeroHeld where
  ends h := .congr h.regEntry_zero
  commit := State.commitStage_keeps (fun s _ e _ => .congr (s.regEntry_zero_commitOne e))
    (fun s _ e _ hs => (hs.congr (s.regEntry_zero_commitOne e)).squashAfter e) (fun _ _ hs => hs)
  memory s := .congr (State.regEntry_congr s.memoryStage_rf 0)
  execute s := .congr (State.regEntry_congr s.executeStage_rf 0)
  issue s := .congr (State.regEntry_congr s.issueStage_rf 0)
  decode := State.decodeStage_keeps (fun s f rest _ => .congr (State.regEntry_zero_allocate { s with fb := rest } f))
    (fun _ _ _ hs => hs)
  fetch s := .congr (State.regEntry_congr s.fetchStage_rf 0)
  clock _ _ _ hs := hs

/-- At reset register 0 holds what the loader gives it, and is ready (R202). -/
theorem State.regEntry_resetWith (c : Config) (imem : List RecordWord) (mem : List Host.Cell) (entry : Word)
    (regs : Vector Word 32) (r : Reg) :
    (State.resetWith c imem mem entry regs).regEntry r = ⟨regs[r.toNat]'r.isLt, true, 0⟩ :=
  mapRegisters_getElem (fun v => (⟨v, true, 0⟩ : RegEntry)) regs r.toNat r.isLt

/-- A record whose destination field names register 0 has no destination (R26). -/
theorem destination_of_rd_zero {r : InstrRecord} (h : r.rd = 0) : destination r = none := by
  simp [destination, h]

/-- Settles O24: the step lemma above, the loaded state, and the two operations that name a destination. -/
theorem zeroRegisterHeld : Obligations.ZeroRegisterHeld := by
  refine ⟨State.reg_zero, fun s t => keptByParts_zeroHeld.step, ?_, ?_, ?_, ?_⟩
  · intro c p s h
    obtain ⟨rfl, hzero⟩ := State.load_next h
    unfold ZeroHeld
    rw [State.regEntry_resetWith]
    exact ⟨hzero, rfl⟩
  · intro s f r hbody hrd
    have hdest : bodyDest f.body = none := by
      rw [hbody]
      exact destination_of_rd_zero hrd
    refine ⟨hdest, fun i => ?_⟩
    rw [State.regEntry_allocate, hdest, if_neg (fun h => nomatch h.1)]
  · intro s e hdest i
    rw [State.regEntry_commitOne, State.regEntry_commitRegister, hdest, if_neg (fun h => nomatch h.1)]
  · exact fun c p hne s h => hne (State.load_next h).2

end Sys2Proof.Machine
end

section
/-!
SUPPORT. The ring of the reorder buffer and the rename map (R30, R32, R150).
-/

namespace Sys2Proof.Machine

/-! ### Tables -/

/-- A field that an update of an entry keeps is kept throughout the table. -/
theorem map_updateAt_of_eq {α β : Type} {g : α → β} {f : α → α} (h : ∀ x, g (f x) = g x) (l : List α) (i : Nat) :
    (updateAt f l i).map g = l.map g := by
  induction l generalizing i with
  | nil => rfl
  | cons x xs ih => cases i <;> simp [updateAt, h, ih]

/-- Tables that agree on `g` agree on it at every position. -/
theorem entryAt_of_map_eq {α β : Type} {g : α → β} {l l' : List α} (h : l.map g = l'.map g) (d : α) (i : Nat) :
    g (entryAt d l i) = g (entryAt d l' i) := by
  have at_map : ∀ l : List α, g (entryAt d l i) = (l.map g).getD i (g d) := fun l => by
    rw [entryAt_eq_getD, List.getD_map]
  rw [at_map, at_map, h]

/-! ### The fields of a ROB entry that are fixed at allocation -/

/-- The fields of a ROB entry that no stage but commit and decode writes: whether it is valid, its destination and its branch
history (R33, R91). -/
def RobEntry.fixed (e : RobEntry) : Bool × Option Reg × Nat := (e.valid, e.dest, e.ghrSnap)

theorem RobEntry.fixed_broadcast (e : RobEntry) (r : CdbResult) : (e.broadcast r).fixed = e.fixed := by
  unfold RobEntry.broadcast
  split <;> rfl

theorem RobEntry.fixed_resolved (e : RobEntry) (kind : LsqKind) (ea data : Word) (fault : Option Cause) :
    (e.resolved kind ea data fault).fixed = e.fixed := by
  cases kind <;> cases fault <;> rfl

theorem State.resolve_fixed (s : State) (u : FuUnit) : (s.resolve u).rob.map RobEntry.fixed = s.rob.map RobEntry.fixed := by
  unfold State.resolve
  split
  · rfl
  · exact map_updateAt_of_eq (fun e => e.fixed_resolved ..) ..

theorem State.advanceUnit_fixed (s : State) (k : FuClass) (j : Nat) :
    (s.advanceUnit k j).rob.map RobEntry.fixed = s.rob.map RobEntry.fixed := by
  have finish : ∀ (t : State) (u : FuUnit), (t.finishUnit k u).rob.map RobEntry.fixed = t.rob.map RobEntry.fixed := by
    intro t u
    cases k with
    | lsu => exact t.resolve_fixed u
    | alu => rfl
    | fpu => rfl
  obtain ⟨-, h⟩ | ⟨-, h⟩ | ⟨-, -, h⟩ := s.advanceUnit_cases k j <;> rw [h]
  · exact finish _ _
  · rfl

/-- The execute stage completes entries and leaves their fixed fields alone (R120, R128). -/
theorem State.executeStage_fixed (s : State) :
    s.executeStage.rob.map RobEntry.fixed = s.rob.map RobEntry.fixed := by
  refine State.executeStage_keeps (P := fun t => t.rob.map RobEntry.fixed = s.rob.map RobEntry.fixed) ?_ ?_ ?_ ?_ s rfl
  · intro t ht
    rw [State.selectStage_rob]
    exact ht
  · exact fun t k j ht => (t.advanceUnit_fixed k j).trans ht
  · exact fun t q ht => ht
  · intro t r ht
    rw [State.broadcastOne_rob, map_updateAt_of_eq (fun e => e.fixed_broadcast r)]
    exact ht

/-! ### The window of the ring -/

theorem ring_offset {cap head t : Nat} (ht : t < cap) (hhead : head < cap) :
    (t + cap - head) % cap = if head ≤ t then t - head else t + cap - head := by
  split
  · rw [show t + cap - head = t - head + cap by omega, Nat.add_mod_right, Nat.mod_eq_of_lt (by omega)]
  · exact Nat.mod_eq_of_lt (by omega)

theorem ring_forward {cap head n : Nat} (hhead : head < cap) (hn : n ≤ cap) :
    (head + n) % cap = if head + n < cap then head + n else head + n - cap := by
  split
  · exact Nat.mod_eq_of_lt ‹_›
  · rw [Nat.mod_eq_sub_mod (by omega), Nat.mod_eq_of_lt (by omega)]

/-- The window of R32 without a modulus. -/
theorem State.inWindow_iff {s : State} {t : Nat} (hhead : s.robHead < s.cfg.robCap) (ht : t < s.cfg.robCap) :
    s.inWindow t ↔ (if s.robHead ≤ t then t - s.robHead else t + s.cfg.robCap - s.robHead) < s.robCount := by
  unfold State.inWindow
  rw [ring_offset ht hhead]

/-! ### The invariant -/

/-- The invariants the rename map rests on: register 0 is held (R26), the ROB is a ring (R32), and a register that is not
ready names a valid entry that writes it (R30). -/
structure RenameInvariant (s : State) : Prop where
  zero : ZeroHeld s
  ring : RobRing s
  sound : RenameSound s

/-- What the invariants depend on besides register 0: the ring, the fixed fields of its entries, and the rename map. -/
structure SameRename (s t : State) : Prop where
  cfg : t.cfg = s.cfg
  head : t.robHead = s.robHead
  tail : t.robTail = s.robTail
  count : t.robCount = s.robCount
  entries : t.rob.map RobEntry.fixed = s.rob.map RobEntry.fixed
  ready : ∀ i, (t.regEntry i).ready = (s.regEntry i).ready
  tag : ∀ i, (t.regEntry i).tag = (s.regEntry i).tag

theorem SameRename.of_rf {s t : State} (cfg : t.cfg = s.cfg) (head : t.robHead = s.robHead) (tail : t.robTail = s.robTail)
    (count : t.robCount = s.robCount) (entries : t.rob.map RobEntry.fixed = s.rob.map RobEntry.fixed) (rf : t.rf = s.rf) :
    SameRename s t :=
  ⟨cfg, head, tail, count, entries, fun i => by rw [State.regEntry_congr rf], fun i => by rw [State.regEntry_congr rf]⟩

theorem SameEngine.sameRename {s t : State} (h : SameEngine s t) : SameRename s t :=
  ⟨h.cfg, h.robHead, h.robTail, h.robCount, by rw [h.rob], h.renameReady, h.renameTag⟩

theorem SameRename.fixed {s t : State} (h : SameRename s t) (i : Nat) : (t.robAt i).fixed = (s.robAt i).fixed :=
  entryAt_of_map_eq h.entries RobEntry.empty i

theorem SameRename.valid {s t : State} (h : SameRename s t) (i : Nat) : (t.robAt i).valid = (s.robAt i).valid :=
  congrArg Prod.fst (h.fixed i)

theorem SameRename.dest {s t : State} (h : SameRename s t) (i : Nat) : (t.robAt i).dest = (s.robAt i).dest :=
  congrArg (·.2.1) (h.fixed i)

theorem SameRename.ring {s t : State} (h : SameRename s t) (hs : RobRing s) : RobRing t where
  size := by
    have hlen := congrArg List.length h.entries
    rw [List.length_map, List.length_map] at hlen
    rw [hlen, h.cfg, hs.size]
  head := by rw [h.head, h.cfg]; exact hs.head
  count := by rw [h.count, h.cfg]; exact hs.count
  tail := by rw [h.tail, h.head, h.count, h.cfg]; exact hs.tail
  valid i hi := by
    rw [h.cfg] at hi
    rw [h.valid, hs.valid i hi]
    unfold State.inWindow
    rw [h.head, h.count, h.cfg]

theorem SameRename.sound {s t : State} (h : SameRename s t) (hs : RenameSound s) : RenameSound t := by
  intro i hi
  rw [h.ready] at hi
  rw [h.tag, h.cfg, h.valid, h.dest]
  exact hs i hi

theorem RenameInvariant.congr {s t : State} (h : SameRename s t) (hz : ZeroHeld s → ZeroHeld t)
    (hs : RenameInvariant s) : RenameInvariant t :=
  ⟨hz hs.zero, h.ring hs.ring, h.sound hs.sound⟩

/-- A write of a field the invariants do not speak of keeps them. -/
theorem RenameInvariant.untouched {s t : State} (hs : RenameInvariant s)
    (h : (t.cfg, t.robHead, t.robTail, t.robCount, t.rob, t.rf) = (s.cfg, s.robHead, s.robTail, s.robCount, s.rob, s.rf)) :
    RenameInvariant t := by
  obtain ⟨cfg, head, tail, count, rob, rf⟩ : t.cfg = s.cfg ∧ t.robHead = s.robHead ∧ t.robTail = s.robTail ∧
    t.robCount = s.robCount ∧ t.rob = s.rob ∧ t.rf = s.rf := by simpa using h
  exact hs.congr (.of_rf cfg head tail count (by rw [rob]) rf) (.congr (State.regEntry_congr rf 0))

/-! ### Commit -/

theorem State.robAt_commitOne (s : State) (e : RobEntry) (t : Nat) :
    (s.commitOne e).robAt t =
      if t = s.robHead ∧ t < s.rob.length then { s.robAt t with valid := false } else s.robAt t := by
  simp only [State.robAt, State.commitOne_rob, entryAt_updateAt]

/-- A commit frees the head: the window begins one later and is one shorter (R143). -/
theorem RobRing.commitOne {s : State} (hs : RobRing s) (e : RobEntry) (hcount : s.robCount ≠ 0) :
    RobRing (s.commitOne e) := by
  have hlt := hs.head
  have hle := hs.count
  have hnext : (s.robHead + 1) % s.cfg.robCap = _ := ring_forward hlt (by omega)
  refine ⟨?_, ?_, ?_, ?_, ?_⟩
  · rw [State.commitOne_rob, length_updateAt, State.commitOne_cfg, hs.size]
  · rw [State.commitOne_robHead, State.commitOne_cfg]
    exact Nat.mod_lt _ (by omega)
  · rw [State.commitOne_robCount, State.commitOne_cfg]
    omega
  · rw [State.commitOne_robTail, State.commitOne_robHead, State.commitOne_robCount, State.commitOne_cfg, hs.tail,
      Nat.mod_add_mod]
    congr 1
    omega
  · intro t ht
    have hhead : (s.commitOne e).robHead < (s.commitOne e).cfg.robCap := by
      rw [State.commitOne_robHead, State.commitOne_cfg]
      exact Nat.mod_lt _ (by omega)
    rw [State.inWindow_iff hhead ht, State.commitOne_robHead, State.commitOne_robCount, State.commitOne_cfg, hnext,
      State.robAt_commitOne, hs.size]
    rw [State.commitOne_cfg] at ht
    have hvalid := (hs.valid t ht).trans (State.inWindow_iff hlt ht)
    by_cases hth : t = s.robHead
    · rw [if_pos ⟨hth, ht⟩]
      simp only [Bool.false_eq_true, false_iff]
      (repeat' split) <;> omega
    · rw [if_neg (fun h => hth h.1), hvalid]
      (repeat' split) <;> omega

/-- A register that is not ready after a commit was not ready before it, and does not name the head: the commit has made its
own register ready, and no other names an entry that does not write it (R143). -/
theorem RenameSound.commitOne {s : State} (hs : RenameInvariant s) {e : RobEntry} (he : e = s.headEntry) :
    RenameSound (s.commitOne e) := by
  intro i hi
  have hentry := s.regEntry_commitOne e i
  rw [State.regEntry_commitRegister] at hentry
  have hkept : (s.regEntry i).ready = false ∧ (s.regEntry i).tag ≠ s.robHead ∧
      ((s.commitOne e).regEntry i).tag = (s.regEntry i).tag := by
    by_cases hd : e.dest = some i ∧ i ≠ 0
    · rw [if_pos hd] at hentry
      rw [hentry] at hi
      obtain ⟨hready, htag⟩ : (s.regEntry i).ready = false ∧ (s.regEntry i).tag ≠ s.robHead := by simpa using hi
      exact ⟨hready, htag, by rw [hentry]⟩
    · rw [if_neg hd] at hentry
      rw [hentry] at hi
      refine ⟨hi, fun htag => hd ⟨?_, ?_⟩, by rw [hentry]⟩
      · have hdest := (hs.sound i hi).2.2
        rw [htag] at hdest
        rw [he]
        exact hdest
      · rintro rfl
        exact absurd (hs.zero.2.symm.trans hi) (by decide)
  obtain ⟨hready, htag, hsame⟩ := hkept
  rw [hsame, State.commitOne_cfg, State.robAt_commitOne, if_neg (fun h => htag h.1)]
  exact hs.sound i hready

theorem RenameInvariant.commitOne {s : State} (hs : RenameInvariant s) {w : List Reg} {e : RobEntry}
    (hact : s.headAction w = .retire e) : RenameInvariant (s.commitOne e) := by
  obtain ⟨he, hcount, -⟩ := headAction_retire hact
  exact ⟨hs.zero.congr (s.regEntry_zero_commitOne e), hs.ring.commitOne e hcount, .commitOne hs he⟩

/-- A squash empties the ring at the head and makes every register ready (R149, R150). -/
theorem RenameInvariant.squashAfter {s : State} (hs : RenameInvariant s) (e : RobEntry) :
    RenameInvariant (s.squashAfter e) := by
  have hlt := hs.ring.head
  refine ⟨hs.zero.squashAfter e, ⟨?_, hlt, Nat.zero_le _, (Nat.mod_eq_of_lt hlt).symm, ?_⟩, ?_⟩
  · rw [State.squashAfter_rob, List.length_map]
    exact hs.ring.size
  · intro t _
    have hinvalid : ((s.squashAfter e).robAt t).valid = false := by
      unfold State.robAt
      rw [State.squashAfter_rob]
      exact forall_entryAt (P := fun x : RobEntry => x.valid = false) (by simp [RobEntry.empty]) t
    rw [hinvalid]
    simp [State.inWindow]
  · intro i hi
    rw [State.regEntry_squashAfter] at hi
    cases hi

/-! ### Decode -/

theorem State.robAt_allocate (s : State) (f : FetchRec) (t : Nat) :
    (s.allocate f).robAt t =
      if t = s.robTail ∧ t < s.rob.length then newRobEntry f s.seqNext else s.robAt t := by
  simp only [State.robAt, State.allocate_rob, entryAt_updateAt]

/-- An allocation takes the tail: the window is one longer (R91). -/
theorem RobRing.allocate {s : State} (hs : RobRing s) (f : FetchRec) (hroom : s.robCount < s.cfg.robCap) :
    RobRing (s.allocate f) := by
  have hlt := hs.head
  have htail := hs.tail.trans (ring_forward hlt hs.count)
  refine ⟨?_, ?_, ?_, ?_, ?_⟩
  · rw [State.allocate_rob, length_updateAt, State.allocate_cfg, hs.size]
  · rw [State.allocate_robHead, State.allocate_cfg]
    exact hlt
  · rw [State.allocate_robCount, State.allocate_cfg]
    exact hroom
  · rw [State.allocate_robTail, State.allocate_robHead, State.allocate_robCount, State.allocate_cfg, hs.tail,
      Nat.mod_add_mod, Nat.add_assoc]
  · intro t ht
    have hhead : (s.allocate f).robHead < (s.allocate f).cfg.robCap := by
      rw [State.allocate_robHead, State.allocate_cfg]
      exact hlt
    rw [State.inWindow_iff hhead ht, State.allocate_robHead, State.allocate_robCount, State.allocate_cfg,
      State.robAt_allocate, hs.size]
    rw [State.allocate_cfg] at ht
    have hvalid := (hs.valid t ht).trans (State.inWindow_iff hlt ht)
    by_cases htt : t = s.robTail
    · rw [if_pos ⟨htt, ht⟩]
      simp only [newRobEntry, true_iff]
      split at htail <;> split <;> omega
    · rw [if_neg (fun h => htt h.1), hvalid]
      split at htail <;> split <;> omega

/-- The tail of a ring with room names no valid entry. -/
theorem RobRing.tail_invalid {s : State} (hs : RobRing s) (hroom : s.robCount < s.cfg.robCap) :
    (s.robAt s.robTail).valid = false := by
  have hlt := hs.head
  have htail := hs.tail.trans (ring_forward hlt hs.count)
  have hin : s.robTail < s.cfg.robCap := by split at htail <;> omega
  rw [← Bool.not_eq_true, hs.valid _ hin, State.inWindow_iff hlt hin]
  split at htail <;> split <;> omega

/-- The destination of an allocated record names the new entry, which writes it; every other register that is not ready
names an entry that was valid, so not the new one (R93). -/
theorem RenameSound.allocate {s : State} (hs : RenameSound s) (hring : RobRing s) (f : FetchRec)
    (hroom : s.robCount < s.cfg.robCap) : RenameSound (s.allocate f) := by
  intro i hi
  have hlt := hring.head
  have htail : s.robTail < s.cfg.robCap := hring.tail ▸ Nat.mod_lt _ (by omega)
  rw [State.regEntry_allocate] at hi ⊢
  rw [State.allocate_cfg]
  by_cases hd : bodyDest f.body = some i ∧ i ≠ 0
  · rw [if_pos hd]
    dsimp only
    rw [State.robAt_allocate, if_pos ⟨rfl, by rw [hring.size]; exact htail⟩]
    exact ⟨htail, rfl, hd.1⟩
  · rw [if_neg hd] at hi ⊢
    obtain ⟨hcap, hvalid, hdest⟩ := hs i hi
    have hne : (s.regEntry i).tag ≠ s.robTail := by
      intro h
      rw [h, hring.tail_invalid hroom] at hvalid
      cases hvalid
    rw [State.robAt_allocate, if_neg (fun h => hne h.1)]
    exact ⟨hcap, hvalid, hdest⟩

theorem RenameInvariant.allocate {s : State} (hs : RenameInvariant s) (f : FetchRec)
    (hroom : s.robCount < s.cfg.robCap) : RenameInvariant (s.allocate f) :=
  ⟨hs.zero.congr (s.regEntry_zero_allocate f), hs.ring.allocate f hroom, hs.sound.allocate hs.ring f hroom⟩

/-- The invariant of the decode loop: its ROB room is what the ring has left (R90). -/
structure RenameInvariant.WithRoom (r : Room) (s : State) : Prop where
  room : r.rob = s.cfg.robCap - s.robCount
  kept : RenameInvariant s

theorem RenameInvariant.WithRoom.take {r : Room} {s : State} (hs : RenameInvariant.WithRoom r s) (f : FetchRec)
    (rest : List FetchRec) (hfits : r.Fits f.body) :
    RenameInvariant.WithRoom (r.take f.body) (State.allocate { s with fb := rest } f) := by
  have hr := hs.room
  have hne := hfits.rob
  have hpopped : RenameInvariant { s with fb := rest } := hs.kept.untouched rfl
  have hroom : s.robCount < s.cfg.robCap := by omega
  refine ⟨?_, hpopped.allocate f hroom⟩
  rw [State.allocate_robCount, State.allocate_cfg]
  show r.rob - 1 = s.cfg.robCap - (s.robCount + 1)
  omega

theorem RenameInvariant.decodeStage {s : State} (hs : RenameInvariant s) : RenameInvariant s.decodeStage := by
  unfold State.decodeStage
  split
  · obtain ⟨_, _, h⟩ := decodeLoop_keeps (P := fun _ => RenameInvariant.WithRoom)
      (fun _ _ _ f rest _ hfits ht => ht.take f rest hfits)
      (fun _ _ _ _ _ ht => ⟨ht.room, ht.kept.untouched rfl⟩) s.cfg.issueWidth s.room s ⟨rfl, hs⟩
    exact h.kept
  · exact hs

/-! ### The obligation -/

theorem keptByParts_renameInvariant : KeptByParts RenameInvariant where
  ends h := .congr h.sameEngine.sameRename (.congr h.regEntry_zero)
  commit := State.commitStage_keeps (fun _ _ _ hact hs => hs.commitOne hact)
    (fun _ _ e hact hs => (hs.commitOne hact).squashAfter e) (fun _ _ hs => hs.untouched rfl)
  memory s := .congr (.of_rf (by simp) (by simp) (by simp) (by simp) (by simp) (by simp))
    (keptByParts_zeroHeld.memory s)
  execute s := .congr (.of_rf (by simp) (by simp) (by simp) (by simp) s.executeStage_fixed (by simp))
    (keptByParts_zeroHeld.execute s)
  issue s := .congr (.of_rf (by simp) (by simp) (by simp) (by simp) (by simp) (by simp))
    (keptByParts_zeroHeld.issue s)
  decode _ hs := hs.decodeStage
  fetch s := .congr (.of_rf (by simp) (by simp) (by simp) (by simp) (by simp) (by simp))
    (keptByParts_zeroHeld.fetch s)
  clock _ _ _ hs := hs.untouched rfl

/-- Settles O26: a step keeps the three invariants together, commit at the head of the ring and decode at its tail. -/
theorem renameMapSound : Obligations.RenameMapSound := by
  intro s t h hzero hring hsound
  have ht : RenameInvariant t := keptByParts_renameInvariant.step h ⟨hzero, hring, hsound⟩
  exact ⟨ht.ring, ht.sound⟩

end Sys2Proof.Machine
end

section
/-!
SUPPORT. The branch history: the global register, the snapshots in the fetch buffer and in the ROB (R33, R47, R109, R112).
-/

namespace Sys2Proof.Machine

/-! ### What the history operations answer -/

theorem shiftHistory_lt (c : Config) (g : Nat) (taken : Bool) : shiftHistory c g taken < 2 ^ c.bpHistory :=
  Nat.mod_lt _ (Nat.two_pow_pos _)

theorem historyAtFetch_ghr (c : Config) (p : Predictor) (r : InstrRecord) (taken : Bool) :
    (historyAtFetch c p r taken).ghr =
      if c.bpType = .gshare ∧ isConditional r.op = true then shiftHistory c p.ghr taken else p.ghr := by
  unfold historyAtFetch
  split <;> rfl

theorem historyRepair_ghr (c : Config) (p : Predictor) (e : RobEntry) :
    (historyRepair c p e).ghr =
      if c.bpType = .gshare then
        (if opIs isConditional e.op = true then shiftHistory c e.ghrSnap e.actualTaken else e.ghrSnap)
      else p.ghr := by
  unfold historyRepair
  split <;> rfl

/-! ### The parts of a step that touch a history -/

theorem State.deliver_fb (s : State) (r : InstrRecord) (p : Word) :
    (s.deliver r p).2.fb = s.fb ++ [fetchedRecord r p (predict s.cfg s.pred r p).1 s.pred.ghr] := rfl

theorem State.deliver_pred (s : State) (r : InstrRecord) (p : Word) :
    (s.deliver r p).2.pred =
      historyAtFetch s.cfg (predict s.cfg s.pred r p).2 r (predict s.cfg s.pred r p).1.taken := rfl

theorem State.deliver_ghr (s : State) (r : InstrRecord) (p : Word) :
    (s.deliver r p).2.pred.ghr =
      if s.cfg.bpType = .gshare ∧ isConditional r.op = true then
        shiftHistory s.cfg s.pred.ghr (predict s.cfg s.pred r p).1.taken
      else s.pred.ghr := by
  rw [State.deliver_pred, historyAtFetch_ghr, predict_ghr]

/-- Committing trains the predictor and leaves its history alone (R111). -/
@[simp] theorem State.commitOne_ghr (s : State) (e : RobEntry) : (s.commitOne e).pred.ghr = s.pred.ghr := by
  have control : ∀ t : State, (t.commitControl e).pred.ghr = t.pred.ghr := by
    intro t
    unfold State.commitControl
    split
    · exact predictorUpdate_ghr ..
    · rfl
  simp [State.commitOne, control]

/-! ### Every history fits `BP_H` bits -/

/-- Histories that are the same, or no longer there, still fit. -/
theorem HistoryFits.congr {s t : State} (cfg : t.cfg = s.cfg) (ghr : t.pred.ghr = s.pred.ghr)
    (fb : ∀ f, f ∈ t.fb → f ∈ s.fb) (rob : t.rob.map (·.ghrSnap) = s.rob.map (·.ghrSnap)) (hs : HistoryFits s) :
    HistoryFits t where
  ghr := by rw [ghr, cfg]; exact hs.ghr
  fb f hf := by rw [cfg]; exact hs.fb f (fb f hf)
  rob i := by
    have hsnap : (t.robAt i).ghrSnap = (s.robAt i).ghrSnap := entryAt_of_map_eq rob RobEntry.empty i
    rw [hsnap, cfg]
    exact hs.rob i

/-- A step of the engine that leaves the predictor, the buffer and the ROB alone. -/
theorem HistoryFits.untouched {s t : State} (hs : HistoryFits s)
    (h : (t.cfg, t.pred, t.fb, t.rob) = (s.cfg, s.pred, s.fb, s.rob)) : HistoryFits t := by
  obtain ⟨cfg, pred, fb, rob⟩ : t.cfg = s.cfg ∧ t.pred = s.pred ∧ t.fb = s.fb ∧ t.rob = s.rob := by simpa using h
  exact hs.congr cfg (by rw [pred]) (fun f hf => fb ▸ hf) (by rw [rob])

theorem HistoryFits.commitOne {s : State} (hs : HistoryFits s) (e : RobEntry) : HistoryFits (s.commitOne e) :=
  hs.congr (by simp) (by simp) (by simp) (by
    rw [State.commitOne_rob, map_updateAt_of_eq]
    exact fun _ => rfl)

/-- A squash takes the history back to the snapshot of the entry it follows, which fits (R112). -/
theorem HistoryFits.squashAfter {s : State} (hs : HistoryFits s) {e : RobEntry}
    (he : e.ghrSnap < 2 ^ s.cfg.bpHistory) : HistoryFits (s.squashAfter e) where
  ghr := by
    rw [State.squashAfter_pred, State.squashAfter_cfg, historyRepair_ghr]
    split
    · split
      · exact shiftHistory_lt ..
      · exact he
    · exact hs.ghr
  fb f hf := by simp at hf
  rob i := by
    have hsnap : ((s.squashAfter e).robAt i).ghrSnap = (s.robAt i).ghrSnap :=
      entryAt_of_map_eq (g := (·.ghrSnap)) (by simp) RobEntry.empty i
    rw [hsnap]
    exact hs.rob i

theorem HistoryFits.pop {s : State} (hs : HistoryFits s) {f : FetchRec} {rest : List FetchRec}
    (hfb : s.fb = f :: rest) : HistoryFits { s with fb := rest } where
  ghr := hs.ghr
  fb x hx := hs.fb x (by rw [hfb]; exact List.mem_cons_of_mem f hx)
  rob := hs.rob

theorem HistoryFits.allocate {s : State} (hs : HistoryFits s) {f : FetchRec}
    (hf : f.ghrSnap < 2 ^ s.cfg.bpHistory) : HistoryFits (s.allocate f) where
  ghr := by simpa using hs.ghr
  fb := by simpa using hs.fb
  rob i := by
    rw [State.robAt_allocate, State.allocate_cfg]
    split
    · exact hf
    · exact hs.rob i

/-- A record joins the buffer with a snapshot of the history, and the history takes a shift at most. -/
theorem HistoryFits.deliver {s : State} (hs : HistoryFits s) (r : InstrRecord) (p : Word) :
    HistoryFits (s.deliver r p).2 where
  ghr := by
    rw [State.deliver_ghr, State.deliver_cfg]
    split
    · exact shiftHistory_lt ..
    · exact hs.ghr
  fb f hf := by
    rw [State.deliver_fb, List.mem_append, List.mem_singleton] at hf
    rw [State.deliver_cfg]
    rcases hf with hf | rfl
    · exact hs.fb f hf
    · exact hs.ghr
  rob i := by
    have hrob : (s.deliver r p).2.robAt i = s.robAt i := by simp [State.robAt]
    rw [hrob, State.deliver_cfg]
    exact hs.rob i

theorem HistoryFits.fault {s : State} (hs : HistoryFits s) (p : Word) :
    HistoryFits { s with fb := s.fb ++ [faultRecord p s.pred.ghr] } where
  ghr := hs.ghr
  fb f hf := by
    rcases List.mem_append.1 hf with hf | hf
    · exact hs.fb f hf
    · rw [List.mem_singleton.1 hf]
      exact hs.ghr
  rob := hs.rob

theorem State.executeStage_ghrSnap (s : State) :
    s.executeStage.rob.map (·.ghrSnap) = s.rob.map (·.ghrSnap) := by
  have h := congrArg (List.map (fun x : Bool × Option Reg × Nat => x.2.2)) s.executeStage_fixed
  rw [List.map_map, List.map_map] at h
  exact h

theorem keptByParts_historyFits : KeptByParts HistoryFits where
  ends h hs := hs.untouched (by rw [h.sameEngine.cfg, h.sameEngine.pred, h.sameEngine.fb, h.sameEngine.rob])
  commit := State.commitStage_keeps (fun _ _ e _ hs => hs.commitOne e)
    (fun s w e hact hs => (hs.commitOne e).squashAfter (by
      rw [(headAction_retire hact).1, State.commitOne_cfg]
      exact hs.rob s.robHead))
    (fun _ _ hs => hs.untouched rfl)
  memory _ hs := hs.untouched (by simp)
  execute s hs := hs.congr (by simp) (by simp) (by simp) s.executeStage_ghrSnap
  issue _ hs := hs.untouched (by simp)
  decode := State.decodeStage_keeps
    (fun _ f _ hfb hs => (hs.pop hfb).allocate (hs.fb f (by rw [hfb]; exact List.mem_cons_self)))
    (fun _ _ _ hs => hs.untouched rfl)
  fetch := State.fetchStage_keeps (fun s _ hs => hs.fault s.fetch.pc) (fun _ _ hs => hs.untouched rfl)
    (fun _ _ hs => hs.untouched (by simp)) (fun _ r p _ hs => hs.deliver r p) (fun _ _ _ hs => hs.untouched rfl)
  clock _ _ _ hs := hs.untouched rfl

/-! ### The other predictors keep no history -/

/-- With a predictor other than gshare, no part of a step writes the history (R109, R112). -/
theorem keptByParts_ghr (g : Nat) : KeptByParts (fun s => s.cfg.bpType ≠ .gshare ∧ s.pred.ghr = g) where
  ends h := by rw [h.sameEngine.cfg, h.sameEngine.pred]; exact id
  commit := State.commitStage_keeps (fun s _ e _ hs => by simpa using hs)
    (fun s _ e _ hs => by simpa [historyRepair_ghr, hs.1] using hs) (fun _ _ hs => hs)
  memory s hs := by simpa using hs
  execute s hs := by simpa using hs
  issue s hs := by simpa using hs
  decode s hs := by simpa using hs
  fetch := State.fetchStage_keeps (fun _ _ hs => hs) (fun _ _ hs => hs) (fun _ _ hs => by simpa using hs)
    (fun s r p _ hs => by simpa [State.deliver_ghr, hs.1] using hs) (fun _ _ _ hs => hs)
  clock _ _ _ hs := hs

/-- Settles O30: the two step lemmas, and the record a fetch delivers. -/
theorem historyStaysInWidth : Obligations.HistoryStaysInWidth := by
  refine ⟨fun s t => keptByParts_historyFits.step, fun s r p => ⟨_, s.deliver_fb r p, rfl, rfl, rfl, ?_⟩, ?_⟩
  · rw [State.deliver_ghr, shiftHistory_eq]
    rfl
  · exact fun s t h hne => ((keptByParts_ghr s.pred.ghr).step h ⟨hne, rfl⟩).2

end Sys2Proof.Machine
end

section
/-!
SUPPORT. The sizes of the tables and the fill of the queues (R32, R34, R35, R37, R39, R40, R45, R47, R48).
-/

namespace Sys2Proof.Machine

/-! ### The sizes of the tables -/

/-- The sizes of the tables of the engine; of a cache, the number of lines of each set. -/
structure Sizes where
  rob : Nat
  rs : PerClass Nat
  fu : PerClass Nat
  fuBusy : PerClass Nat
  pht : Nat
  btb : Nat
  icache : List Nat
  dcache : List Nat

/-- The number of lines of each set of a cache. -/
def Cache.wayCounts (c : Cache) : List Nat := c.sets.map List.length

/-- The sizes of the tables of a state. -/
def State.sizes (s : State) : Sizes where
  rob := s.rob.length
  rs := s.rs.map List.length
  fu := s.fu.map List.length
  fuBusy := s.metrics.fuBusy.map List.length
  pht := s.pred.pht.length
  btb := s.pred.btb.length
  icache := s.icache.wayCounts
  dcache := s.dcache.wayCounts

/-- The sizes a configuration gives the tables. -/
def Config.sizes (c : Config) : Sizes where
  rob := c.robCap
  rs := c.rsCap
  fu := c.fuCount
  fuBusy := c.fuCount
  pht := c.bpEntries
  btb := c.btbEntries
  icache := List.replicate c.icache.sets c.icache.assoc
  dcache := List.replicate c.dcache.sets c.dcache.assoc

theorem cacheShape_iff (g : CacheConfig) (c : Cache) :
    CacheShape g c ↔ c.wayCounts = List.replicate g.sets g.assoc := by
  rw [List.eq_replicate_iff, Cache.wayCounts, List.length_map, List.forall_mem_map]
  exact ⟨fun h => ⟨h.sets, h.ways⟩, fun h => ⟨h.1, h.2⟩⟩

theorem PerClass.map_length_eq_iff {α : Type} (p : PerClass (List α)) (q : PerClass Nat) :
    p.map List.length = q ↔ ∀ k, (p.get k).length = q.get k := by
  constructor
  · rintro rfl k
    rw [PerClass.get_map]
  · intro h
    rw [show q = ⟨q.alu, q.fpu, q.lsu⟩ from rfl, ← show _ = q.alu from h .alu, ← show _ = q.fpu from h .fpu,
      ← show _ = q.lsu from h .lsu]
    rfl

/-- The capacity invariant: three queues within their capacities, and every table of its configured size. -/
theorem withinCapacity_iff (s : State) :
    WithinCapacity s ↔ s.fb.length ≤ s.cfg.fbCap ∧ s.lsq.length ≤ s.cfg.lsqCap ∧ s.dl.length ≤ s.cfg.issueWidth ∧
      s.sizes = Config.sizes s.cfg := by
  have sizes : s.sizes = Config.sizes s.cfg ↔ s.rob.length = s.cfg.robCap ∧
      (∀ k, (s.rs.get k).length = s.cfg.rsCap.get k) ∧ (∀ k, (s.fu.get k).length = s.cfg.fuCount.get k) ∧
      (∀ k, (s.metrics.fuBusy.get k).length = s.cfg.fuCount.get k) ∧ s.pred.pht.length = s.cfg.bpEntries ∧
      s.pred.btb.length = s.cfg.btbEntries ∧ CacheShape s.cfg.icache s.icache ∧ CacheShape s.cfg.dcache s.dcache := by
    simp only [State.sizes, Config.sizes, Sizes.mk.injEq, PerClass.map_length_eq_iff, cacheShape_iff]
  rw [sizes]
  exact ⟨fun h => ⟨h.fb, h.lsq, h.dl, h.rob, h.rs, h.fu, h.fuBusy, h.pht, h.btb, h.icache, h.dcache⟩,
    fun ⟨fb, lsq, dl, rob, rs, fu, fuBusy, pht, btb, icache, dcache⟩ =>
      ⟨fb, lsq, dl, rob, rs, fu, fuBusy, pht, btb, icache, dcache⟩⟩

/-! ### Operations that keep the sizes -/

theorem cacheAccess_wayCounts (g : CacheConfig) (w : Bool) (c : Cache) (a : Nat) :
    (cacheAccess g w c a).2.wayCounts = c.wayCounts := by
  unfold cacheAccess Cache.wayCounts updateLine
  split <;> exact map_updateAt_of_eq (fun ways => length_updateAt ..) ..

/-- Storing a table of the same size keeps the sizes. -/
theorem PerClass.map_set_of_eq {α β : Type} {f : α → β} {p : PerClass α} {k : FuClass} {v : α}
    (h : f v = f (p.get k)) : (p.set k v).map f = p.map f := by
  cases k <;> simp only [PerClass.map, PerClass.set, PerClass.get] at h ⊢ <;> rw [h]

theorem btbLookup_btb_length (p : Predictor) (pc : Word) : (btbLookup p pc).2.btb.length = p.btb.length := by
  unfold btbLookup
  split
  · exact length_updateAt ..
  · rfl

theorem btbLookup_pht (p : Predictor) (pc : Word) : (btbLookup p pc).2.pht = p.pht := by
  unfold btbLookup
  split <;> rfl

/-- The predictor a prediction leaves is the one it reads, or the one a lookup leaves. -/
theorem predict_snd (c : Config) (p : Predictor) (r : InstrRecord) (pc : Word) :
    (predict c p r pc).2 = p ∨ (predict c p r pc).2 = (btbLookup p pc).2 := by
  unfold predict
  split
  · right
    split
    · rename_i h
      rw [h]
    · rename_i h
      rw [h]
      split <;> rfl
  · exact .inl rfl

theorem predict_sizes (c : Config) (p : Predictor) (r : InstrRecord) (pc : Word) :
    (predict c p r pc).2.pht.length = p.pht.length ∧ (predict c p r pc).2.btb.length = p.btb.length := by
  rcases predict_snd c p r pc with h | h
  · rw [h]
    exact ⟨rfl, rfl⟩
  · rw [h, btbLookup_pht]
    exact ⟨rfl, btbLookup_btb_length p pc⟩

theorem predictorUpdate_sizes (c : Config) (p : Predictor) (e : RobEntry) :
    (predictorUpdate c p e).pht.length = p.pht.length ∧ (predictorUpdate c p e).btb.length = p.btb.length := by
  unfold predictorUpdate btbUpdate phtUpdate btbInsert
  split <;> split <;> simp

theorem historyAtFetch_tables (c : Config) (p : Predictor) (r : InstrRecord) (taken : Bool) :
    (historyAtFetch c p r taken).pht = p.pht ∧ (historyAtFetch c p r taken).btb = p.btb := by
  unfold historyAtFetch
  split <;> exact ⟨rfl, rfl⟩

theorem historyRepair_tables (c : Config) (p : Predictor) (e : RobEntry) :
    (historyRepair c p e).pht = p.pht ∧ (historyRepair c p e).btb = p.btb := by
  unfold historyRepair
  split <;> exact ⟨rfl, rfl⟩

/-! ### Commit -/

theorem State.commitOne_pred (s : State) (e : RobEntry) :
    (s.commitOne e).pred = if e.isCtl then predictorUpdate s.cfg s.pred e else s.pred := by
  simp only [State.commitOne, State.commitFree_pred, State.commitControl]
  split <;> simp

theorem State.commitOne_fuBusy (s : State) (e : RobEntry) : (s.commitOne e).metrics.fuBusy = s.metrics.fuBusy := by
  have control : ∀ t : State, (t.commitControl e).metrics.fuBusy = t.metrics.fuBusy := by
    intro t
    unfold State.commitControl
    split <;> rfl
  have store : ∀ t : State, (t.commitStore e).metrics.fuBusy = t.metrics.fuBusy := by
    intro t
    unfold State.commitStore
    split <;> rfl
  simp [State.commitOne, control, store]

theorem State.commitOne_sizes (s : State) (e : RobEntry) : (s.commitOne e).sizes = s.sizes := by
  have hpred : (s.commitOne e).pred.pht.length = s.pred.pht.length ∧
      (s.commitOne e).pred.btb.length = s.pred.btb.length := by
    rw [State.commitOne_pred]
    split
    · exact predictorUpdate_sizes ..
    · exact ⟨rfl, rfl⟩
  have hdcache : (s.commitOne e).dcache.wayCounts = s.dcache.wayCounts := by
    rw [State.commitOne_dcache]
    split
    · exact cacheAccess_wayCounts ..
    · rfl
  simp only [State.sizes, State.commitOne_rob, length_updateAt, State.commitOne_rs, State.commitOne_fu,
    State.commitOne_fuBusy, State.commitOne_icache, hpred, hdcache]

theorem State.squashAfter_sizes (s : State) (e : RobEntry) : (s.squashAfter e).sizes = s.sizes := by
  simp [State.sizes, historyRepair_tables, PerClass.map]

/-! ### The memory stage -/

theorem State.loadAccess_sizes (s : State) (a : Word) (f : Option LsqEntry) :
    (s.loadAccess a f).2.2.metrics.fuBusy = s.metrics.fuBusy ∧
      (s.loadAccess a f).2.2.dcache.wayCounts = s.dcache.wayCounts := by
  cases f with
  | some st => exact ⟨rfl, rfl⟩
  | none =>
    simp only [State.loadAccess]
    split
    · exact ⟨rfl, cacheAccess_wayCounts ..⟩
    · exact ⟨rfl, cacheAccess_wayCounts ..⟩

/-- All that starting a load does to the tables and to the length of the LSQ. -/
theorem State.startLoad_tables (s : State) :
    s.startLoad.metrics.fuBusy = s.metrics.fuBusy ∧ s.startLoad.dcache.wayCounts = s.dcache.wayCounts ∧
      s.startLoad.lsq.length = s.lsq.length := by
  unfold State.startLoad
  split
  · exact ⟨rfl, rfl, rfl⟩
  · split
    · exact ⟨rfl, rfl, rfl⟩
    · rename_i l older _
      obtain ⟨hbusy, hways⟩ := s.loadAccess_sizes l.addr (forwardingStore older l.addr)
      exact ⟨hbusy, hways, by simp [setLoadState]⟩

theorem State.memoryStage_sizes (s : State) : s.memoryStage.sizes = s.sizes := by
  obtain ⟨hbusy, hways, -⟩ := s.startLoad_tables
  simp [State.sizes, State.memoryStage, hbusy, hways]

/-! ### The execute stage -/

theorem dispatchUnits_length (lat : Nat) (k : FuClass) (us : List FuUnit) (rs : List RsEntry) :
    (dispatchUnits lat k us rs).1.length = us.length ∧ (dispatchUnits lat k us rs).2.1.length = rs.length := by
  induction us generalizing rs with
  | nil => exact ⟨rfl, rfl⟩
  | cons u us ih =>
    unfold dispatchUnits
    split
    · exact ⟨congrArg (· + 1) (ih rs).1, (ih rs).2⟩
    · split
      · exact ⟨rfl, rfl⟩
      · rename_i i _
        obtain ⟨hus, hrs⟩ := ih (updateAt RsEntry.free rs i)
        exact ⟨congrArg (· + 1) hus, hrs.trans (length_updateAt ..)⟩

theorem State.dispatchClass_sizes (s : State) (k : FuClass) : (s.dispatchClass k).1.sizes = s.sizes := by
  obtain ⟨hus, hrs⟩ := dispatchUnits_length (s.cfg.fuLat.get k) k (s.fu.get k) (s.rs.get k)
  simp only [State.sizes, State.dispatchClass, PerClass.map_set_of_eq hus, PerClass.map_set_of_eq hrs]

theorem State.countRaw_sizes (s : State) (n : Nat) : (s.countRaw n).sizes = s.sizes := by
  unfold State.countRaw
  split <;> rfl

theorem State.selectStage_sizes (s : State) : s.selectStage.sizes = s.sizes := by
  simp only [State.selectStage, State.countRaw_sizes, State.dispatchClass_sizes]

theorem State.countBusy_sizes (s : State) (k : FuClass) (j : Nat) : (s.countBusy k j).sizes = s.sizes := by
  simp only [State.sizes, State.countBusy, State.count, PerClass.map_set_of_eq (length_updateAt ..)]

theorem State.setUnit_sizes (s : State) (k : FuClass) (j : Nat) (u : FuUnit) : (s.setUnit k j u).sizes = s.sizes := by
  simp only [State.sizes, State.setUnit, PerClass.map_set_of_eq (length_updateAt ..)]

theorem State.resolve_sizes (s : State) (u : FuUnit) : (s.resolve u).sizes = s.sizes := by
  have hrob : (s.resolve u).rob.length = s.rob.length := by
    simpa using congrArg List.length (s.resolve_fixed u)
  simp [State.sizes, hrob]

theorem State.finishUnit_sizes (s : State) (k : FuClass) (u : FuUnit) : (s.finishUnit k u).sizes = s.sizes := by
  cases k with
  | lsu => exact s.resolve_sizes u
  | alu => rfl
  | fpu => rfl

theorem State.advanceUnit_sizes (s : State) (k : FuClass) (j : Nat) : (s.advanceUnit k j).sizes = s.sizes := by
  obtain ⟨-, h⟩ | ⟨-, h⟩ | ⟨-, -, h⟩ := s.advanceUnit_cases k j <;> rw [h]
  · rw [State.setUnit_sizes, State.finishUnit_sizes, State.countBusy_sizes]
  · rw [State.setUnit_sizes, State.countBusy_sizes]

theorem State.broadcastOne_sizes (s : State) (r : CdbResult) : (s.broadcastOne r).sizes = s.sizes := by
  have hrs : (s.broadcastOne r).rs.map List.length = s.rs.map List.length := by
    rw [State.broadcastOne_rs]
    split
    · simp [PerClass.map]
    · rfl
  simp [State.sizes, State.broadcastOne_rob, hrs]

/-! ### Fetch -/

theorem State.icacheRead_sizes (s : State) (p : Word) : (s.icacheRead p).2.sizes = s.sizes := by
  have hways : (s.icacheRead p).2.icache.wayCounts = s.icache.wayCounts := cacheAccess_wayCounts ..
  have hbusy : (s.icacheRead p).2.metrics.fuBusy = s.metrics.fuBusy := rfl
  simp [State.sizes, hways, hbusy]

theorem State.deliver_sizes (s : State) (r : InstrRecord) (p : Word) : (s.deliver r p).2.sizes = s.sizes := by
  simp [State.sizes, State.deliver_pred, historyAtFetch_tables, predict_sizes]

/-! ### No table changes its size -/

theorem keptByParts_sizes (z : Sizes) : KeptByParts (fun s => s.sizes = z) where
  ends h hs := by
    obtain ⟨n, hn⟩ := h.sameEngine.metrics
    rw [← hs]
    simp [State.sizes, h.sameEngine.rob, h.sameEngine.rs, h.sameEngine.fu, h.sameEngine.pred, h.sameEngine.icache,
      h.sameEngine.dcache, hn]
  commit := State.commitStage_keeps (fun s _ e _ hs => (s.commitOne_sizes e).trans hs)
    (fun s _ e _ hs => ((s.commitOne e).squashAfter_sizes e).trans ((s.commitOne_sizes e).trans hs)) (fun _ _ hs => hs)
  memory s hs := s.memoryStage_sizes.trans hs
  execute := State.executeStage_keeps (fun s hs => s.selectStage_sizes.trans hs)
    (fun s k j hs => (s.advanceUnit_sizes k j).trans hs) (fun _ _ hs => hs)
    (fun s r hs => (s.broadcastOne_sizes r).trans hs)
  issue := State.issueStage_keeps (fun _ _ _ _ hs => hs) (fun s k f j hs => by
    rw [← hs]
    simp only [State.sizes, PerClass.map_set_of_eq (length_updateAt ..)])
  decode := State.decodeStage_keeps
    (fun s f rest _ hs => by
      rw [← hs]
      simp [State.sizes, State.allocate_rob])
    (fun s g hg hs => by
      rw [← hs]
      simp [State.sizes, hg])
  fetch := State.fetchStage_keeps (fun _ _ hs => hs) (fun _ _ hs => hs) (fun s p hs => (s.icacheRead_sizes p).trans hs)
    (fun s r p _ hs => (s.deliver_sizes r p).trans hs)
    (fun s g hg hs => by
      rw [← hs]
      simp [State.sizes, hg])
  clock _ _ _ hs := hs

/-! ### No queue outgrows its capacity -/

/-- Fetch alone fills the buffer, and delivers only where there is room (R39, R104). -/
theorem keptByParts_fb : KeptByParts (fun s => s.fb.length ≤ s.cfg.fbCap) where
  ends h hs := by rw [h.sameEngine.fb, h.sameEngine.cfg]; exact hs
  commit := State.commitStage_keeps (fun s _ e _ hs => by simpa using hs) (fun s _ e _ _ => by simp) (fun _ _ hs => hs)
  memory s hs := by simpa using hs
  execute s hs := by simpa using hs
  issue s hs := by simpa using hs
  decode := State.decodeStage_keeps
    (fun s f rest hfb hs => by
      rw [hfb, List.length_cons] at hs
      simpa using Nat.le_of_succ_le hs)
    (fun _ _ _ hs => hs)
  fetch := State.fetchStage_keeps (fun s hroom _ => by simpa using hroom) (fun _ _ hs => hs)
    (fun s p hs => by simpa using hs)
    (fun s r p hroom _ => by
      rw [State.deliver_fb, State.deliver_cfg, List.length_append]
      exact hroom)
    (fun _ _ _ hs => hs)
  clock _ _ _ hs := hs

/-- Decode alone fills the latch, which is empty when it starts, with at most `W_i` records (R40, R90). -/
theorem keptByParts_dl : KeptByParts (fun s => s.dl.length ≤ s.cfg.issueWidth) where
  ends h hs := by rw [h.sameEngine.dl, h.sameEngine.cfg]; exact hs
  commit := State.commitStage_keeps (fun s _ e _ hs => by simpa using hs) (fun s _ e _ _ => by simp) (fun _ _ hs => hs)
  memory s hs := by simpa using hs
  execute s hs := by simpa using hs
  issue := State.issueStage_keeps
    (fun s d rest hdl hs => by
      rw [hdl, List.length_cons] at hs
      exact Nat.le_of_succ_le hs)
    (fun _ _ _ _ hs => hs)
  decode s hs := by
    unfold State.decodeStage
    split
    · rename_i hempty
      obtain ⟨n, _, h⟩ := decodeLoop_keeps (P := fun n _ t => t.dl.length + n ≤ t.cfg.issueWidth)
        (fun n r t f rest _ _ ht => by
          obtain ⟨d, hd, -⟩ := State.allocate_dl { t with fb := rest } f
          rw [hd, State.allocate_cfg, List.length_append, List.length_singleton]
          show t.dl.length + 1 + n ≤ t.cfg.issueWidth
          omega)
        (fun _ _ _ _ _ ht => ht) s.cfg.issueWidth s.room s (by simp [List.isEmpty_iff.1 hempty])
      omega
    · exact hs
  fetch s hs := by simpa using hs
  clock _ _ _ hs := hs

theorem State.resolve_lsq_length (s : State) (u : FuUnit) : (s.resolve u).lsq.length = s.lsq.length := by
  unfold State.resolve
  split <;> simp

theorem State.advanceUnit_lsq_length (s : State) (k : FuClass) (j : Nat) :
    (s.advanceUnit k j).lsq.length = s.lsq.length := by
  have finish : ∀ (t : State) (u : FuUnit), (t.finishUnit k u).lsq.length = t.lsq.length := by
    intro t u
    cases k with
    | lsu => exact t.resolve_lsq_length u
    | alu => rfl
    | fpu => rfl
  obtain ⟨-, h⟩ | ⟨-, h⟩ | ⟨-, -, h⟩ := s.advanceUnit_cases k j <;> rw [h]
  · exact finish _ _
  · rfl

theorem State.broadcastOne_lsq_length (s : State) (r : CdbResult) : (s.broadcastOne r).lsq.length = s.lsq.length := by
  have mark : ∀ t : State, (t.markLoadDone r.lsq).lsq.length = t.lsq.length := by
    intro t
    unfold State.markLoadDone
    split <;> simp [setLoadState]
  unfold State.broadcastOne
  dsimp only
  rw [mark]
  split <;> rfl

/-- The decode loop's LSQ room is what the queue has left (R90). -/
structure LsqRoom (r : Room) (s : State) : Prop where
  room : r.lsq = s.cfg.lsqCap - s.lsq.length
  within : s.lsq.length ≤ s.cfg.lsqCap

theorem LsqRoom.take {r : Room} {s : State} (hs : LsqRoom r s) (f : FetchRec) (rest : List FetchRec)
    (hfits : r.Fits f.body) : LsqRoom (r.take f.body) (State.allocate { s with fb := rest } f) := by
  have hroom := hs.room
  have hwithin := hs.within
  have hcfg : (State.allocate { s with fb := rest } f).cfg = s.cfg := State.allocate_cfg ..
  have hlen : (State.allocate { s with fb := rest } f).lsq.length =
      s.lsq.length + if bodyIs isMemory f.body then 1 else 0 := State.allocate_lsq_length ..
  have htake : (r.take f.body).lsq = if bodyIs isMemory f.body then r.lsq - 1 else r.lsq := rfl
  by_cases hm : bodyIs isMemory f.body = true
  · have hne := hfits.lsq hm
    rw [if_pos hm] at hlen htake
    exact ⟨by rw [htake, hlen, hcfg]; omega, by rw [hlen, hcfg]; omega⟩
  · rw [if_neg hm] at hlen htake
    exact ⟨by rw [htake, hlen, hcfg]; omega, by rw [hlen, hcfg]; omega⟩

/-- Decode alone fills the LSQ, and takes a load or a store only where there is room (R37, R90). -/
theorem keptByParts_lsq : KeptByParts (fun s => s.lsq.length ≤ s.cfg.lsqCap) where
  ends h hs := by rw [h.sameEngine.lsq, h.sameEngine.cfg]; exact hs
  commit := State.commitStage_keeps
    (fun s _ e _ hs => by
      rw [State.commitOne_lsq, State.commitOne_cfg]
      split
      · rw [List.length_tail]
        exact le_trans (Nat.sub_le ..) hs
      · exact hs)
    (fun s _ e _ _ => by simp) (fun _ _ hs => hs)
  memory s hs := by
    rw [State.memoryStage, State.countPort_lsq, s.startLoad_tables.2.2]
    simpa using hs
  execute := State.executeStage_keeps (fun s hs => by simpa using hs)
    (fun s k j hs => by rw [State.advanceUnit_lsq_length, State.advanceUnit_cfg]; exact hs) (fun _ _ hs => hs)
    (fun s r hs => by rw [State.broadcastOne_lsq_length, State.broadcastOne_cfg]; exact hs)
  issue s hs := by simpa using hs
  decode s hs := by
    unfold State.decodeStage
    split
    · obtain ⟨_, _, h⟩ := decodeLoop_keeps (P := fun _ => LsqRoom) (fun _ _ _ f rest _ hfits ht => ht.take f rest hfits)
        (fun _ _ _ _ _ ht => ⟨ht.room, ht.within⟩) s.cfg.issueWidth s.room s ⟨rfl, hs⟩
      exact h.within
    · exact hs
  fetch s hs := by simpa using hs
  clock _ _ _ hs := hs

/-- Settles O28: the sizes are the same after the step, and each queue is filled by one stage, which checks for room. -/
theorem capacitiesKept : Obligations.CapacitiesKept := by
  intro s t h hs
  obtain ⟨hfb, hlsq, hdl, hsizes⟩ := (withinCapacity_iff s).1 hs
  have hcfg : t.cfg = s.cfg := (configurationAndTextFixed s t h).1
  refine (withinCapacity_iff t).2 ⟨keptByParts_fb.step h hfb, keptByParts_lsq.step h hlsq, keptByParts_dl.step h hdl, ?_⟩
  rw [hcfg]
  exact (keptByParts_sizes _).step h hsizes

end Sys2Proof.Machine
end

section
/-!
SUPPORT. The functional units: what the advance step makes of each, the results it posts and the addresses it resolves
(R116, R117, R119, R128).
-/

namespace Sys2Proof.Machine

/-! ### Tables -/

theorem updateAt_congr {α : Type} {f g : α → α} {d : α} {l : List α} {i : Nat}
    (h : f (entryAt d l i) = g (entryAt d l i)) : updateAt f l i = updateAt g l i := by
  induction l generalizing i with
  | nil => rfl
  | cons x xs ih =>
    cases i with
    | zero => exact congrArg (· :: xs) h
    | succ i => exact congrArg (x :: ·) (ih h)

theorem updateAt_id {α : Type} (l : List α) (i : Nat) : updateAt id l i = l := by
  simpa using map_updateAt_of_eq (g := id) (f := id) (fun _ => rfl) l i

theorem drop_updateAt {α : Type} (f : α → α) (l : List α) (i : Nat) :
    (updateAt f l i).drop (i + 1) = l.drop (i + 1) := by
  induction l generalizing i with
  | nil => rfl
  | cons x xs ih =>
    cases i with
    | zero => rfl
    | succ i => simpa [updateAt] using ih i

theorem drop_eq_entryAt_cons {α : Type} (d : α) {l : List α} {i : Nat} (h : i < l.length) :
    l.drop i = entryAt d l i :: l.drop (i + 1) := by
  rw [List.drop_eq_getElem_cons h, entryAt_eq_getD, List.getD_eq_getElem _ _ h]

theorem PerClass.set_get_self {α : Type} (p : PerClass α) (k : FuClass) : p.set k (p.get k) = p := by
  cases k <;> rfl

/-! ### One unit -/

/-- The advance step of one unit writes that unit alone. -/
theorem State.advanceUnit_fu (s : State) (k : FuClass) (j : Nat) :
    (s.advanceUnit k j).fu = s.fu.set k (updateAt FuUnit.ticked (s.fu.get k) j) := by
  have tick : s.fu.set k (updateAt (fun _ => (s.unitAt k j).ticked) (s.fu.get k) j) =
      s.fu.set k (updateAt FuUnit.ticked (s.fu.get k) j) :=
    congrArg (s.fu.set k) (updateAt_congr (d := FuUnit.idle) rfl)
  obtain ⟨-, h⟩ | ⟨-, h⟩ | ⟨-, hfree, h⟩ := s.advanceUnit_cases k j
  · rw [h, ← tick, State.setUnit, State.finishUnit_fu]
    rfl
  · rw [h, ← tick]
    rfl
  · have hid : (s.unitAt k j).ticked = id (s.unitAt k j) := if_neg (by simp [hfree])
    rw [h, updateAt_congr (d := FuUnit.idle) hid, updateAt_id, PerClass.set_get_self]

/-- An ALU or FPU unit that finishes posts its result, and nothing else does. -/
theorem State.advanceUnit_cdbq (s : State) {k : FuClass} (hk : k ≠ .lsu) (j : Nat) :
    (s.advanceUnit k j).cdbq =
      s.cdbq ++ if (s.unitAt k j).finishes then [(s.unitAt k j).result s.cfg.overflowTraps] else [] := by
  obtain ⟨hfin, h⟩ | ⟨hfin, h⟩ | ⟨hfin, -, h⟩ := s.advanceUnit_cases k j <;> rw [h, hfin]
  · cases k with
    | lsu => exact absurd rfl hk
    | alu => rfl
    | fpu => rfl
  · exact (List.append_nil _).symm
  · exact (List.append_nil _).symm

/-- An LSU unit posts nothing: it resolves its address (R117, R128). -/
theorem State.advanceUnit_lsu_cdbq (s : State) (j : Nat) : (s.advanceUnit .lsu j).cdbq = s.cdbq := by
  obtain ⟨-, h⟩ | ⟨-, h⟩ | ⟨-, -, h⟩ := s.advanceUnit_cases .lsu j <;> rw [h]
  · exact (s.countBusy .lsu j).resolve_cdbq (s.unitAt .lsu j)
  · rfl

/-! ### Address resolution -/

/-- What address resolution depends on is the same: the LSQ, the ROB and the configuration. -/
structure SameResolution (s t : State) : Prop where
  lsq : t.lsq = s.lsq
  rob : t.rob = s.rob
  cfg : t.cfg = s.cfg

theorem SameResolution.resolve {s t : State} (h : SameResolution s t) (u : FuUnit) :
    SameResolution (s.resolve u) (t.resolve u) := by
  unfold State.resolve
  rw [h.lsq]
  split
  · exact h
  · exact ⟨by simp [h.cfg], by simp [h.rob, h.cfg], by simp [h.cfg]⟩

/-- An LSU unit that finishes resolves its address, and no other does. -/
theorem State.advanceUnit_lsu_resolves (s : State) (j : Nat) :
    SameResolution (if (s.unitAt .lsu j).finishes then s.resolve (s.unitAt .lsu j) else s) (s.advanceUnit .lsu j) := by
  obtain ⟨hfin, h⟩ | ⟨hfin, h⟩ | ⟨hfin, -, h⟩ := s.advanceUnit_cases .lsu j <;> rw [h, hfin]
  · have hcounted : SameResolution s (s.countBusy .lsu j) := ⟨rfl, rfl, rfl⟩
    have hres := hcounted.resolve (s.unitAt .lsu j)
    exact ⟨hres.lsq, hres.rob, hres.cfg⟩
  · exact ⟨rfl, rfl, rfl⟩
  · exact ⟨rfl, rfl, rfl⟩

/-- An ALU or FPU unit resolves no address. -/
theorem State.advanceUnit_resolves_none (s : State) {k : FuClass} (hk : k ≠ .lsu) (j : Nat) :
    SameResolution s (s.advanceUnit k j) := by
  obtain ⟨-, h⟩ | ⟨-, h⟩ | ⟨-, -, h⟩ := s.advanceUnit_cases k j <;> rw [h]
  · cases k with
    | lsu => exact absurd rfl hk
    | alu => exact ⟨rfl, rfl, rfl⟩
    | fpu => exact ⟨rfl, rfl, rfl⟩
  · exact ⟨rfl, rfl, rfl⟩
  · exact ⟨rfl, rfl, rfl⟩

/-! ### The units of one class -/

/-- The advance step of `n` units from unit `j` on: those units are ticked and their busy ticks counted, every other unit of
any class is as before. -/
theorem advanceFrom_unit (k k' : FuClass) (n j j' : Nat) (s : State) (u : FuUnit) (h : (s.fu.get k')[j']? = some u) :
    ((advanceFrom k n j s).fu.get k')[j']? = some (if k' = k ∧ j ≤ j' ∧ j' < j + n then u.ticked else u) ∧
    ∀ m, (s.metrics.fuBusy.get k')[j']? = some m →
      ((advanceFrom k n j s).metrics.fuBusy.get k')[j']? =
        some (if k' = k ∧ j ≤ j' ∧ j' < j + n ∧ u.busy = true then m + 1 else m) := by
  induction n generalizing j s u with
  | zero =>
    rw [if_neg (by omega)]
    refine ⟨h, fun m hm => ?_⟩
    rw [if_neg (by omega)]
    exact hm
  | succ n ih =>
    have hfu := (s.advanceUnit_spec k k' j j' u 0 h).1
    have hcount := fun m => (s.advanceUnit_spec k k' j j' u m h).2.1
    by_cases hj : k' = k ∧ j' = j
    · obtain ⟨rfl, rfl⟩ := hj
      obtain ⟨hrest, hcrest⟩ := ih (j' + 1) (s.advanceUnit k' j') _ hfu
      rw [if_neg (by omega)] at hrest
      refine ⟨?_, fun m hm => ?_⟩
      · rw [if_pos ⟨rfl, le_refl _, by omega⟩]
        show ((advanceFrom k' n (j' + 1) (s.advanceUnit k' j')).fu.get k')[j']? = _
        rw [hrest]
        simp [FuUnit.ticked]
      · have hone := hcrest _ (hcount m hm)
        rw [if_neg (by omega)] at hone
        show ((advanceFrom k' n (j' + 1) (s.advanceUnit k' j')).metrics.fuBusy.get k')[j']? = _
        rw [hone]
        simp
    · rw [if_neg (fun c => hj ⟨c.1, c.2.1⟩)] at hfu
      obtain ⟨hrest, hcrest⟩ := ih (j + 1) (s.advanceUnit k j) u hfu
      have hrange : (k' = k ∧ j + 1 ≤ j' ∧ j' < j + 1 + n) ↔ (k' = k ∧ j ≤ j' ∧ j' < j + (n + 1)) := by
        constructor
        · rintro ⟨hk, hlo, hhi⟩
          exact ⟨hk, by omega, by omega⟩
        · rintro ⟨hk, hlo, hhi⟩
          have hne : j' ≠ j := fun c => hj ⟨hk, c⟩
          exact ⟨hk, by omega, by omega⟩
      refine ⟨?_, fun m hm => ?_⟩
      · rw [← if_congr hrange rfl rfl]
        exact hrest
      · have hone := hcount m hm
        rw [if_neg (fun c => hj ⟨c.1, c.2.1⟩)] at hone
        have hbusy := and_congr_left' (c := u.busy = true) hrange
        simp only [and_assoc] at hbusy
        rw [← if_congr hbusy rfl rfl]
        exact hcrest m hone

/-- The advance step of one class ticks the units of that class. -/
theorem State.advanceClass_unit (s : State) (k : FuClass) {k' : FuClass} {j : Nat} {u : FuUnit}
    (h : (s.fu.get k')[j]? = some u) :
    ((s.advanceClass k).fu.get k')[j]? = some (if k' = k then u.ticked else u) ∧
    ∀ m, (s.metrics.fuBusy.get k')[j]? = some m →
      ((s.advanceClass k).metrics.fuBusy.get k')[j]? = some (if k' = k ∧ u.busy = true then m + 1 else m) := by
  have hrange : (k' = k ∧ 0 ≤ j ∧ j < 0 + (s.fu.get k).length) ↔ k' = k := by
    refine ⟨fun c => c.1, ?_⟩
    rintro rfl
    have hlt := (List.getElem?_eq_some_iff.1 h).1
    exact ⟨rfl, Nat.zero_le _, by omega⟩
  obtain ⟨hfu, hcount⟩ := advanceFrom_unit k k' (s.fu.get k).length 0 j s u h
  rw [if_congr hrange rfl rfl] at hfu
  refine ⟨hfu, fun m hm => ?_⟩
  have hbusy := and_congr_left' (c := u.busy = true) hrange
  simp only [and_assoc] at hbusy
  rw [← if_congr hbusy rfl rfl]
  exact hcount m hm

theorem advanceFrom_fu_other {k k' : FuClass} (hk : k' ≠ k) (n j : Nat) (s : State) :
    (advanceFrom k n j s).fu.get k' = s.fu.get k' := by
  induction n generalizing j s with
  | zero => rfl
  | succ n ih =>
    show (advanceFrom k n (j + 1) (s.advanceUnit k j)).fu.get k' = _
    rw [ih, State.advanceUnit_fu, PerClass.get_set, if_neg hk]

/-- The results a class of ALU or FPU units posts, in unit order. -/
theorem advanceFrom_cdbq {k : FuClass} (hk : k ≠ .lsu) (n j : Nat) (s : State) (hn : j + n = (s.fu.get k).length) :
    (advanceFrom k n j s).cdbq =
      s.cdbq ++ (((s.fu.get k).drop j).filter FuUnit.finishes).map (·.result s.cfg.overflowTraps) := by
  induction n generalizing j s with
  | zero =>
    rw [List.drop_eq_nil_of_le (by omega)]
    simp [advanceFrom]
  | succ n ih =>
    have hfu := s.advanceUnit_fu k j
    have hget : (s.advanceUnit k j).fu.get k = updateAt FuUnit.ticked (s.fu.get k) j := by
      rw [hfu, PerClass.get_set, if_pos rfl]
    show (advanceFrom k n (j + 1) (s.advanceUnit k j)).cdbq = _
    rw [ih (j + 1) (s.advanceUnit k j) (by rw [hget, length_updateAt]; omega), hget, drop_updateAt,
      State.advanceUnit_cdbq s hk, State.advanceUnit_cfg,
      drop_eq_entryAt_cons FuUnit.idle (show j < (s.fu.get k).length by omega), List.filter_cons]
    show _ = s.cdbq ++ List.map _ (if (s.unitAt k j).finishes = true then _ else _)
    split
    · rw [List.map_cons, List.append_assoc]
      rfl
    · rw [List.append_nil]

theorem advanceFrom_lsu_cdbq (n j : Nat) (s : State) : (advanceFrom .lsu n j s).cdbq = s.cdbq := by
  induction n generalizing j s with
  | zero => rfl
  | succ n ih => exact (ih _ _).trans (s.advanceUnit_lsu_cdbq j)

theorem advanceFrom_resolves_none {k : FuClass} (hk : k ≠ .lsu) (n j : Nat) (s : State) :
    SameResolution s (advanceFrom k n j s) := by
  induction n generalizing j s with
  | zero => exact ⟨rfl, rfl, rfl⟩
  | succ n ih =>
    have hone := s.advanceUnit_resolves_none hk j
    have hrest := ih (j + 1) (s.advanceUnit k j)
    exact ⟨hrest.lsq.trans hone.lsq, hrest.rob.trans hone.rob, hrest.cfg.trans hone.cfg⟩

/-- The LSU units that finish resolve their addresses, in unit order; `a` has the queues the class starts from. -/
theorem advanceFrom_lsu_resolves (n j : Nat) (s a : State) (hn : j + n = (s.fu.get .lsu).length)
    (ha : SameResolution a s) :
    SameResolution ((((s.fu.get .lsu).drop j).filter FuUnit.finishes).foldl State.resolve a)
      (advanceFrom .lsu n j s) := by
  induction n generalizing j s a with
  | zero =>
    rw [List.drop_eq_nil_of_le (by omega)]
    exact ha
  | succ n ih =>
    have hget : (s.advanceUnit .lsu j).fu.get .lsu = updateAt FuUnit.ticked (s.fu.get .lsu) j := by
      rw [s.advanceUnit_fu, PerClass.get_set, if_pos rfl]
    have hone := s.advanceUnit_lsu_resolves j
    have hlen : j + 1 + n = ((s.advanceUnit .lsu j).fu.get .lsu).length := by
      rw [hget, length_updateAt]
      omega
    rw [drop_eq_entryAt_cons FuUnit.idle (show j < (s.fu.get .lsu).length by omega), List.filter_cons]
    show SameResolution (List.foldl _ _ (if (s.unitAt .lsu j).finishes = true then s.unitAt .lsu j :: _ else _)) _
    rw [← drop_updateAt FuUnit.ticked, ← hget]
    by_cases hfin : (s.unitAt .lsu j).finishes = true
    · rw [if_pos hfin] at hone ⊢
      have hres := ha.resolve (s.unitAt .lsu j)
      exact ih (j + 1) _ _ hlen ⟨hone.lsq.trans hres.lsq, hone.rob.trans hres.rob, hone.cfg.trans hres.cfg⟩
    · rw [if_neg hfin] at hone ⊢
      exact ih (j + 1) _ _ hlen ⟨hone.lsq.trans ha.lsq, hone.rob.trans ha.rob, hone.cfg.trans ha.cfg⟩

/-! ### The advance step -/

/-- Every unit is ticked once, and its busy tick counted (R116, R45). -/
theorem State.advanceStage_unit (s : State) {k : FuClass} {j : Nat} {u : FuUnit} (h : (s.fu.get k)[j]? = some u) :
    (s.advanceStage.fu.get k)[j]? = some u.ticked ∧
    ∀ m, (s.metrics.fuBusy.get k)[j]? = some m →
      (s.advanceStage.metrics.fuBusy.get k)[j]? = some (m + if u.busy = true then 1 else 0) := by
  obtain ⟨h₁, c₁⟩ := s.advanceClass_unit .alu h
  obtain ⟨h₂, c₂⟩ := (s.advanceClass .alu).advanceClass_unit .fpu h₁
  obtain ⟨h₃, c₃⟩ := ((s.advanceClass .alu).advanceClass .fpu).advanceClass_unit .lsu h₂
  have hadd : ∀ m, (m + if u.busy = true then 1 else 0) = if u.busy = true then m + 1 else m := by
    intro m
    split <;> rfl
  refine ⟨h₃.trans ?_, fun m hm => (c₃ _ (c₂ _ (c₁ m hm))).trans ?_⟩
  · cases k <;> rfl
  · rw [hadd]
    cases k <;> simp

theorem State.advanceClass_cdbq (s : State) {k : FuClass} (hk : k ≠ .lsu) :
    (s.advanceClass k).cdbq =
      s.cdbq ++ ((s.fu.get k).filter FuUnit.finishes).map (·.result s.cfg.overflowTraps) :=
  advanceFrom_cdbq hk _ 0 s (Nat.zero_add _)

/-- The results posted in a tick: those of the ALU units that finish, then those of the FPU units (R116, R117). -/
theorem State.advanceStage_cdbq (s : State) :
    s.advanceStage.cdbq =
      s.cdbq ++ ((s.fu.get .alu).filter FuUnit.finishes).map (·.result s.cfg.overflowTraps) ++
        ((s.fu.get .fpu).filter FuUnit.finishes).map (·.result s.cfg.overflowTraps) := by
  have hfpu : (s.advanceClass .alu).fu.get .fpu = s.fu.get .fpu := advanceFrom_fu_other (by decide) ..
  have hcfg : (s.advanceClass .alu).cfg = s.cfg := advanceFrom_cfg ..
  rw [State.advanceStage, State.advanceClass, advanceFrom_lsu_cdbq, State.advanceClass_cdbq _ (by decide), hfpu, hcfg,
    State.advanceClass_cdbq _ (by decide)]

/-- The addresses resolved in a tick: those of the LSU units that finish (R117, R128). -/
theorem State.advanceStage_resolves (s : State) :
    SameResolution (((s.fu.get .lsu).filter FuUnit.finishes).foldl State.resolve s) s.advanceStage := by
  have halu : SameResolution s (s.advanceClass .alu) := advanceFrom_resolves_none (by decide) ..
  have hfpu : SameResolution (s.advanceClass .alu) ((s.advanceClass .alu).advanceClass .fpu) :=
    advanceFrom_resolves_none (by decide) ..
  have hlsu : ((s.advanceClass .alu).advanceClass .fpu).fu.get .lsu = s.fu.get .lsu :=
    (advanceFrom_fu_other (by decide) ..).trans (advanceFrom_fu_other (by decide) ..)
  rw [← hlsu]
  exact advanceFrom_lsu_resolves _ 0 _ s (Nat.zero_add _)
    ⟨hfpu.lsq.trans halu.lsq, hfpu.rob.trans halu.rob, hfpu.cfg.trans halu.cfg⟩

/-! ### No unit is busy for more ticks than its latency -/

/-- Every class has a latency of at least one tick (R199). -/
def LatenciesPositive (s : State) : Prop := ∀ k, 1 ≤ s.cfg.fuLat.get k

theorem LatenciesPositive.congr {s t : State} (hs : LatenciesPositive s) (cfg : t.cfg = s.cfg) :
    LatenciesPositive t := by
  unfold LatenciesPositive
  rw [cfg]
  exact hs

theorem latenciesPositive_of_step {s t : State} (h : step s = .next t) : LatenciesPositive s := by
  have hvalid := (startRefusal_none (step_next h).1).1
  rw [Config.valid_iff] at hvalid
  obtain ⟨-, -, -, -, -, -, -, -, -, -, -, -, -, halu, hfpu, hlsu, -⟩ := hvalid
  intro k
  cases k with
  | alu => exact halu
  | fpu => exact hfpu
  | lsu => exact hlsu

/-- A unit after selection is one of the class's units, or newly bound for the latency of its class (R115). -/
theorem mem_dispatchUnits {lat : Nat} {k : FuClass} {us : List FuUnit} {rs : List RsEntry} {u : FuUnit}
    (h : u ∈ (dispatchUnits lat k us rs).1) : u ∈ us ∨ ∃ e, u = bindUnit lat e := by
  induction us generalizing rs with
  | nil => exact .inl h
  | cons v us ih =>
    unfold dispatchUnits at h
    split at h
    · rcases List.mem_cons.1 h with rfl | h
      · exact .inl List.mem_cons_self
      · exact (ih h).imp_left (List.mem_cons_of_mem v)
    · split at h
      · exact .inl h
      · rcases List.mem_cons.1 h with rfl | h
        · exact .inr ⟨_, rfl⟩
        · exact (ih h).imp_left (List.mem_cons_of_mem v)

/-- The invariant depends on the units and the configuration alone. -/
theorem UnitsWithinLatency.congr {s t : State} (hs : UnitsWithinLatency s) (fu : t.fu = s.fu) (cfg : t.cfg = s.cfg) :
    UnitsWithinLatency t := by
  unfold UnitsWithinLatency
  rw [fu, cfg]
  exact hs

theorem UnitsWithinLatency.dispatchClass {s : State} (hs : UnitsWithinLatency s) (hlat : LatenciesPositive s)
    (k : FuClass) : UnitsWithinLatency (s.dispatchClass k).1 := by
  intro k' u hu hbusy
  have hfu : (s.dispatchClass k).1.fu = s.fu.set k (dispatchUnits (s.cfg.fuLat.get k) k (s.fu.get k) (s.rs.get k)).1 :=
    rfl
  rw [hfu, PerClass.get_set] at hu
  rw [State.dispatchClass_cfg]
  split at hu
  · rename_i hk
    subst hk
    rcases mem_dispatchUnits hu with hu | ⟨e, rfl⟩
    · exact hs _ u hu hbusy
    · exact ⟨hlat _, le_refl _⟩
  · exact hs k' u hu hbusy

theorem UnitsWithinLatency.selectStage {s : State} (hs : UnitsWithinLatency s) (hlat : LatenciesPositive s) :
    UnitsWithinLatency s.selectStage := by
  have raw : ∀ (t : State) (n : Nat), UnitsWithinLatency t → UnitsWithinLatency (t.countRaw n) :=
    fun t n ht => ht.congr (by simp) (by simp)
  have lat : ∀ (t : State) (k : FuClass), LatenciesPositive t → LatenciesPositive (t.dispatchClass k).1 :=
    fun t k ht => ht.congr (t.dispatchClass_cfg k)
  exact raw _ _ (((hs.dispatchClass hlat .alu).dispatchClass (lat _ _ hlat) .fpu).dispatchClass
    (lat _ _ (lat _ _ hlat)) .lsu)

theorem UnitsWithinLatency.advanceUnit {s : State} (hs : UnitsWithinLatency s) (k : FuClass) (j : Nat) :
    UnitsWithinLatency (s.advanceUnit k j) := by
  intro k' u hu hbusy
  rw [State.advanceUnit_fu, PerClass.get_set] at hu
  rw [State.advanceUnit_cfg]
  split at hu
  · rename_i hk
    subst hk
    rcases mem_updateAt hu with hu | ⟨v, hv, rfl⟩
    · exact hs _ u hu hbusy
    · unfold FuUnit.ticked at hbusy ⊢
      split
      · rename_i hvbusy
        rw [if_pos hvbusy] at hbusy
        have hmore : v.remaining - 1 ≠ 0 := by simpa using hbusy
        have hv := hs _ v hv hvbusy
        dsimp only
        omega
      · rename_i hfree
        rw [if_neg hfree] at hbusy
        exact absurd hbusy hfree
  · exact hs k' u hu hbusy

theorem UnitsWithinLatency.squashAfter (s : State) (e : RobEntry) : UnitsWithinLatency (s.squashAfter e) := by
  intro k u hu hbusy
  rw [State.squashAfter_fu, PerClass.get_map] at hu
  obtain ⟨v, -, rfl⟩ := List.mem_map.1 hu
  cases hbusy

/-- With positive latencies, selection binds a unit for its latency and the advance step frees it when no tick is left. -/
theorem keptByParts_unitsWithinLatency : KeptByParts (fun s => LatenciesPositive s ∧ UnitsWithinLatency s) := by
  have untouched : ∀ {s t : State}, t.fu = s.fu → t.cfg = s.cfg → LatenciesPositive s ∧ UnitsWithinLatency s →
      LatenciesPositive t ∧ UnitsWithinLatency t := fun fu cfg hs => ⟨hs.1.congr cfg, hs.2.congr fu cfg⟩
  exact {
    ends := fun h => untouched h.sameEngine.fu h.sameEngine.cfg
    commit := State.commitStage_keeps (fun _ _ _ _ => untouched (by simp) (by simp))
      (fun _ _ e _ hs => ⟨hs.1.congr (by simp), .squashAfter _ e⟩) (fun _ _ => untouched rfl rfl)
    memory := fun _ => untouched (by simp) (by simp)
    execute := State.executeStage_keeps (fun _ hs => ⟨hs.1.congr (by simp), hs.2.selectStage hs.1⟩)
      (fun _ k j hs => ⟨hs.1.congr (by simp), hs.2.advanceUnit k j⟩) (fun _ _ => untouched rfl rfl)
      (fun _ _ => untouched (by simp) (by simp))
    issue := fun _ => untouched (by simp) (by simp)
    decode := fun _ => untouched (by simp) (by simp)
    fetch := fun _ => untouched (by simp) (by simp)
    clock := fun _ _ _ => untouched rfl rfl }

/-! ### The obligation -/

/-- In a state whose busy units have a tick left, the units that finish are those with one tick left. -/
theorem UnitsWithinLatency.filter_finishes {s : State} (hs : UnitsWithinLatency s) (k : FuClass) :
    (s.fu.get k).filter (fun u => u.busy && u.remaining == 1) = (s.fu.get k).filter FuUnit.finishes := by
  refine List.filter_congr fun u hu => ?_
  unfold FuUnit.finishes
  cases hbusy : u.busy with
  | false => rfl
  | true =>
    have hleft := (hs k u hu hbusy).1
    simp only [Bool.true_and, beq_eq_beq]
    omega

/-- Settles O31: the step lemma, each unit's tick, and the results and addresses of the units that finish. -/
theorem unitsKeepWithinLatency : Obligations.UnitsKeepWithinLatency := by
  refine ⟨?_, ?_, ?_⟩
  · exact fun s t h hs => (keptByParts_unitsWithinLatency.step h ⟨latenciesPositive_of_step h, hs⟩).2
  · intro s k j u h t r
    obtain ⟨hunit, hcount⟩ := s.advanceStage_unit h
    refine ⟨fun hfree => ?_, fun hbusy hmore => ?_, fun hbusy hlast => ⟨?_, fun hk => ?_⟩, hcount⟩
    · rw [hunit, FuUnit.ticked, if_neg (by simp [hfree])]
    · rw [hunit, FuUnit.ticked, if_pos hbusy, bne_iff_ne.2 (show u.remaining - 1 ≠ 0 by omega), ← hbusy]
    · rw [hunit, FuUnit.ticked, if_pos hbusy, hlast]
      rfl
    · have hposted : u.result s.cfg.overflowTraps ∈
          ((s.fu.get k).filter FuUnit.finishes).map (·.result s.cfg.overflowTraps) := by
        refine List.mem_map_of_mem (List.mem_filter.2 ⟨List.mem_of_getElem? h, ?_⟩)
        simp [FuUnit.finishes, hbusy, hlast]
      show u.result s.cfg.overflowTraps ∈ s.advanceStage.cdbq
      rw [State.advanceStage_cdbq]
      cases k with
      | lsu => exact absurd rfl hk
      | alu => exact List.mem_append_left _ (List.mem_append_right _ hposted)
      | fpu => exact List.mem_append_right _ hposted
  · intro s hs t finished posted
    have hfinished : ∀ k, finished k = (s.fu.get k).filter FuUnit.finishes := hs.filter_finishes
    rw [hfinished, hfinished, hfinished]
    exact ⟨s.advanceStage_cdbq, s.advanceStage_resolves.lsq, s.advanceStage_resolves.rob⟩

end Sys2Proof.Machine
end

section
/-!
SUPPORT. The packet fetch delivers in one tick (R102 to R106): what one pass of the fetch loop does, and the packets it
makes as a relation, over which the facts about a packet are proved by induction.
-/

namespace Sys2Proof.Machine

/-! ### The record an address names -/

theorem decode?_eq_some_iff (w : RecordWord) (i : Instr) : decode? w = some i ↔ decode w = .ok i := by
  unfold decode?
  cases decode w <;> simp

/-- An address names a record exactly if it is aligned, in the text, and the word there is legal (R29, R103). -/
theorem State.instrAt_iff (s : State) (p : Word) (i : Instr) : s.instrAt p = some i ↔
    p.toNat % 4 = 0 ∧ s.cfg.textBase.toNat ≤ p.toNat ∧ p.toNat < s.cfg.textBase.toNat + 4 * s.imem.length ∧
      decode (s.imem.getD ((p.toNat - s.cfg.textBase.toNat) / 4) 0) = .ok i := by
  unfold State.instrAt State.textIndex State.textWord
  split
  · rename_i k hk
    split at hk
    · rename_i hin
      obtain ⟨halign, hlo, hhi⟩ := hin
      cases hk
      rw [entryAt_eq_getD, decode?_eq_some_iff]
      exact ⟨fun h => ⟨halign, hlo, hhi, h⟩, fun ⟨_, _, _, h⟩ => h⟩
    · cases hk
  · rename_i hk
    split at hk
    · cases hk
    · rename_i hout
      exact ⟨fun h => (nomatch h), fun ⟨h₁, h₂, h₃, _⟩ => absurd ⟨h₁, h₂, h₃⟩ hout⟩

theorem State.instrAt_congr {s t : State} (cfg : t.cfg = s.cfg) (imem : t.imem = s.imem) (p : Word) :
    t.instrAt p = s.instrAt p := by
  unfold State.instrAt State.textIndex State.textWord
  rw [cfg, imem]

/-! ### A record delivered on a hit -/

/-- What fetch predicts for the instruction `i` at its pc. -/
def State.hitPrediction (s : State) (i : Instr) : Prediction := (predict s.cfg s.pred i.record s.fetch.pc).1

/-- The record fetch delivers for the instruction `i` at its pc. -/
def State.hitRecord (s : State) (i : Instr) : FetchRec :=
  fetchedRecord i.record s.fetch.pc (s.hitPrediction i) s.pred.ghr

/-- The state after fetch has read the I-cache at its pc and delivered the instruction `i`. -/
def State.afterHit (s : State) (i : Instr) : State :=
  ((s.icacheRead s.fetch.pc).2.deliver i.record s.fetch.pc).2

@[simp] theorem State.afterHit_cfg (s : State) (i : Instr) : (s.afterHit i).cfg = s.cfg := by simp [State.afterHit]

theorem State.afterHit_instrAt (s : State) (i : Instr) (p : Word) : (s.afterHit i).instrAt p = s.instrAt p :=
  State.instrAt_congr (by simp) (by simp [State.afterHit]) p

@[simp] theorem State.afterHit_fb (s : State) (i : Instr) : (s.afterHit i).fb = s.fb ++ [s.hitRecord i] := rfl

theorem State.afterHit_fetch (s : State) (i : Instr) :
    (s.afterHit i).fetch =
      if (s.hitPrediction i).taken && (s.hitPrediction i).stall1 then
        { s.fetch with pc := (s.hitPrediction i).next s.fetch.pc, stall := 1, stallCause := .target }
      else { s.fetch with pc := (s.hitPrediction i).next s.fetch.pc } := rfl

@[simp] theorem State.afterHit_pc (s : State) (i : Instr) : (s.afterHit i).fetch.pc = (s.hitRecord i).fetchedNextPc := by
  rw [State.afterHit_fetch]
  split <;> rfl

@[simp] theorem State.afterHit_blocked (s : State) (i : Instr) : (s.afterHit i).fetch.blocked = s.fetch.blocked := by
  rw [State.afterHit_fetch]
  split <;> rfl

/-- A record that is not predicted taken stalls nothing. -/
theorem State.afterHit_stall (s : State) {i : Instr} (hnt : (s.hitPrediction i).taken = false) :
    (s.afterHit i).fetch.stall = s.fetch.stall := by
  rw [State.afterHit_fetch, hnt]
  rfl

/-- A target taken from the record stalls one tick, of cause target (R106, R108). -/
theorem State.afterHit_stall_taken (s : State) {i : Instr} (ht : (s.hitPrediction i).taken = true)
    (hs : s.fetch.stall = 0) :
    (s.afterHit i).fetch.stall = (if (s.hitPrediction i).stall1 then 1 else 0) ∧
      ((s.hitPrediction i).stall1 = true → (s.afterHit i).fetch.stallCause = .target) := by
  rw [State.afterHit_fetch, ht, Bool.true_and]
  cases (s.hitPrediction i).stall1 with
  | true => exact ⟨rfl, fun _ => rfl⟩
  | false => exact ⟨hs, fun h => nomatch h⟩

theorem State.afterHit_pred (s : State) (i : Instr) :
    (s.afterHit i).pred =
      historyAtFetch s.cfg (predict s.cfg s.pred i.record s.fetch.pc).2 i.record (s.hitRecord i).predTaken := rfl

theorem State.afterHit_icache (s : State) (i : Instr) :
    (s.afterHit i).icache = (cacheAccess s.cfg.icache false s.icache s.fetch.pc.toNat).2 := rfl

theorem State.icacheRead_metrics (s : State) (p : Word) :
    (s.icacheRead p).2.metrics =
      { s.metrics with
        icacheAccesses := s.metrics.icacheAccesses + 1
        icacheHits := s.metrics.icacheHits + (if (hitWay s.cfg.icache s.icache p.toNat).isSome then 1 else 0) } := by
  rw [← cacheAccess_hit s.cfg.icache false]
  rfl

theorem State.afterHit_metrics (s : State) {i : Instr} (hit : hitWay s.cfg.icache s.icache s.fetch.pc.toNat ≠ none) :
    (s.afterHit i).metrics =
      { s.metrics with
        icacheAccesses := s.metrics.icacheAccesses + 1, icacheHits := s.metrics.icacheHits + 1 } := by
  rw [State.afterHit, State.deliver_metrics, State.icacheRead_metrics, if_pos (Option.isSome_iff_ne_none.2 hit)]

/-- The state after a miss: the line is filled and fetch stalls for the miss penalty (R105, R106). -/
def State.afterMiss (s : State) : State :=
  { (s.icacheRead s.fetch.pc).2 with
    fetch := { s.fetch with stall := s.cfg.icache.miss, stallCause := .icacheMiss } }

/-- The state after a fetch fault record: fetch is blocked (R103). -/
def State.afterFault (s : State) : State :=
  { s with
    fb := s.fb ++ [faultRecord s.fetch.pc s.pred.ghr]
    fetch := { s.fetch with blocked := true } }

/-! ### One pass of the fetch loop -/

theorem State.icacheRead_eq (s : State) (p : Word) :
    s.icacheRead p = ((hitWay s.cfg.icache s.icache p.toNat).isSome, (s.icacheRead p).2) := by
  rw [← cacheAccess_hit s.cfg.icache false]
  rfl

theorem fetchLoop_full {n : Nat} {s : State} (h : s.cfg.fbCap ≤ s.fb.length) : fetchLoop (n + 1) s = s := by
  rw [fetchLoop, if_pos h]

theorem fetchLoop_fault {n : Nat} {s : State} (room : s.fb.length < s.cfg.fbCap) (h : s.instrAt s.fetch.pc = none) :
    fetchLoop (n + 1) s = s.afterFault := by
  rw [fetchLoop, if_neg (Nat.not_le_of_lt room), h]
  rfl

theorem fetchLoop_miss {n : Nat} {s : State} {i : Instr} (room : s.fb.length < s.cfg.fbCap)
    (h : s.instrAt s.fetch.pc = some i) (miss : hitWay s.cfg.icache s.icache s.fetch.pc.toNat = none) :
    fetchLoop (n + 1) s = s.afterMiss := by
  rw [fetchLoop, if_neg (Nat.not_le_of_lt room), h]
  dsimp only
  rw [State.icacheRead_eq, miss]
  rfl

/-- On a hit the record is delivered, and the packet ends there if it is predicted taken. -/
theorem fetchLoop_hit {n : Nat} {s : State} {i : Instr} (room : s.fb.length < s.cfg.fbCap)
    (h : s.instrAt s.fetch.pc = some i) (hit : hitWay s.cfg.icache s.icache s.fetch.pc.toNat ≠ none) :
    fetchLoop (n + 1) s = if (s.hitPrediction i).taken then s.afterHit i else fetchLoop n (s.afterHit i) := by
  have hdeliver : (s.icacheRead s.fetch.pc).2.deliver i.record s.fetch.pc =
      ((s.hitPrediction i).taken, s.afterHit i) := rfl
  rw [fetchLoop, if_neg (Nat.not_le_of_lt room), h]
  dsimp only
  rw [State.icacheRead_eq, Option.isSome_iff_ne_none.2 hit]
  dsimp only
  rw [hdeliver]
  cases (s.hitPrediction i).taken <;> rfl

/-! ### Packets -/

/-- The packets of at most `n` records: `Packet n s new t` says that fetch goes from `s` to `t` and delivers `new`. A packet
ends at its width, at a full buffer, after a fetch fault record, at a miss or after a record predicted taken (R104, R105). -/
inductive Packet : Nat → State → List FetchRec → State → Prop where
  | width (s : State) : Packet 0 s [] s
  | full {n : Nat} {s : State} (h : s.cfg.fbCap ≤ s.fb.length) : Packet (n + 1) s [] s
  | fault {n : Nat} {s : State} (room : s.fb.length < s.cfg.fbCap) (h : s.instrAt s.fetch.pc = none) :
    Packet (n + 1) s [faultRecord s.fetch.pc s.pred.ghr] s.afterFault
  | miss {n : Nat} {s : State} (room : s.fb.length < s.cfg.fbCap) (h : s.instrAt s.fetch.pc ≠ none)
    (miss : hitWay s.cfg.icache s.icache s.fetch.pc.toNat = none) : Packet (n + 1) s [] s.afterMiss
  | taken {n : Nat} {s : State} {i : Instr} (room : s.fb.length < s.cfg.fbCap) (h : s.instrAt s.fetch.pc = some i)
    (hit : hitWay s.cfg.icache s.icache s.fetch.pc.toNat ≠ none) (taken : (s.hitPrediction i).taken = true) :
    Packet (n + 1) s [s.hitRecord i] (s.afterHit i)
  | next {n : Nat} {s t : State} {i : Instr} {new : List FetchRec} (room : s.fb.length < s.cfg.fbCap)
    (h : s.instrAt s.fetch.pc = some i) (hit : hitWay s.cfg.icache s.icache s.fetch.pc.toNat ≠ none)
    (notTaken : (s.hitPrediction i).taken = false) (rest : Packet n (s.afterHit i) new t) :
    Packet (n + 1) s (s.hitRecord i :: new) t

/-- The fetch loop delivers a packet. -/
theorem fetchLoop_packet (n : Nat) (s : State) : ∃ new, Packet n s new (fetchLoop n s) := by
  induction n generalizing s with
  | zero => exact ⟨[], .width s⟩
  | succ n ih =>
    rcases Nat.lt_or_ge s.fb.length s.cfg.fbCap with room | hfull
    · cases h : s.instrAt s.fetch.pc with
      | none =>
        rw [fetchLoop_fault room h]
        exact ⟨_, .fault room h⟩
      | some i =>
        by_cases hit : hitWay s.cfg.icache s.icache s.fetch.pc.toNat = none
        · rw [fetchLoop_miss room h hit]
          exact ⟨_, .miss room (by simp [h]) hit⟩
        · rw [fetchLoop_hit room h hit]
          cases ht : (s.hitPrediction i).taken with
          | true => exact ⟨_, .taken room h hit ht⟩
          | false =>
            obtain ⟨new, hnew⟩ := ih (s.afterHit i)
            exact ⟨_, .next room h hit ht hnew⟩
    · rw [fetchLoop_full hfull]
      exact ⟨_, .full hfull⟩

theorem State.fetchStage_eq {s : State} (hstall : s.fetch.stall = 0) (hblocked : s.fetch.blocked = false) :
    s.fetchStage = fetchLoop s.cfg.fetchWidth s := by
  rw [State.fetchStage, if_neg (by simp [hstall]), if_neg (by simp [hblocked])]

/-! ### What the replays of a packet answer -/

theorem State.predAfter_cons_hit (s : State) (i : Instr) (l : List FetchRec) :
    s.predAfter (s.hitRecord i :: l) = (s.afterHit i).predAfter l := by
  unfold State.predAfter
  rw [State.afterHit_cfg, State.afterHit_pred, List.foldl_cons]
  rfl

theorem State.icacheAfter_cons_hit (s : State) (i : Instr) (l : List FetchRec) :
    s.icacheAfter (s.hitRecord i :: l) = (s.afterHit i).icacheAfter l := by
  unfold State.icacheAfter
  rw [State.afterHit_cfg, State.afterHit_icache, List.foldl_cons]
  rfl

/-! ### The records of a packet -/

namespace Packet

variable {n : Nat} {s t : State} {new : List FetchRec}

theorem fb_eq (h : Packet n s new t) : t.fb = s.fb ++ new := by
  induction h with
  | width s => exact (List.append_nil _).symm
  | full _ => exact (List.append_nil _).symm
  | fault room _ => rfl
  | miss room _ _ => simp [State.afterMiss]
  | taken room _ _ _ => rfl
  | next room _ _ _ _ ih => simp [ih]

theorem length_le (h : Packet n s new t) : new.length ≤ n := by
  induction h with
  | width s => exact le_refl _
  | full _ => exact Nat.zero_le _
  | fault room _ => exact Nat.succ_le_succ (Nat.zero_le _)
  | miss room _ _ => exact Nat.zero_le _
  | taken room _ _ _ => exact Nat.succ_le_succ (Nat.zero_le _)
  | next room _ _ _ _ ih => exact Nat.succ_le_succ ih

theorem head_pc (h : Packet n s new t) : ∀ f, new.head? = some f → f.pc = s.fetch.pc := by
  cases h with
  | width s => exact fun _ h => nomatch h
  | full _ => exact fun _ h => nomatch h
  | miss room _ _ => exact fun _ h => nomatch h
  | fault room _ => rintro _ ⟨⟩; rfl
  | taken room _ _ _ => rintro _ ⟨⟩; rfl
  | next room _ _ _ _ => rintro _ ⟨⟩; rfl

/-- Each record is at the pc fetch followed from the one before it (R104). -/
theorem chain (h : Packet n s new t) : List.IsChain (fun x y => y.pc = x.fetchedNextPc) new := by
  induction h with
  | width s => exact .nil
  | full _ => exact .nil
  | fault room _ => exact .singleton _
  | miss room _ _ => exact .nil
  | taken room _ _ _ => exact .singleton _
  | next room _ _ _ rest ih =>
    exact List.isChain_cons.2 ⟨fun y hy => (rest.head_pc y hy).trans (State.afterHit_pc ..), ih⟩

/-- Fetch follows a record to its target if it is predicted taken, else to the next pc (R102, R104). -/
theorem fetchedNextPc_eq (h : Packet n s new t) :
    ∀ f, f ∈ new → f.fetchedNextPc = if f.predTaken then f.predTarget else f.pc + 4 := by
  have hitRecord : ∀ (s : State) (i : Instr),
      (s.hitRecord i).fetchedNextPc =
        if (s.hitRecord i).predTaken then (s.hitRecord i).predTarget else (s.hitRecord i).pc + 4 := by
    intro s i
    simp only [State.hitRecord, fetchedRecord, Prediction.next, nextSequential_eq]
    split <;> rfl
  induction h with
  | width s => exact fun _ h => nomatch h
  | full _ => exact fun _ h => nomatch h
  | fault room _ => exact List.forall_mem_singleton.2 rfl
  | miss room _ _ => exact fun _ h => nomatch h
  | taken room _ _ _ => exact List.forall_mem_singleton.2 (hitRecord ..)
  | next room _ _ _ _ ih => exact List.forall_mem_cons.2 ⟨hitRecord .., ih⟩

/-- A fetch fault record is at a pc that names no record, and blocks fetch (R103). -/
theorem of_fault (h : Packet n s new t) :
    ∀ f, f ∈ new → f.body = none → s.instrAt f.pc = none ∧ t.fetch.blocked = true := by
  induction h with
  | width s => exact fun _ h => nomatch h
  | full _ => exact fun _ h => nomatch h
  | fault room hnone => exact List.forall_mem_singleton.2 fun _ => ⟨hnone, rfl⟩
  | miss room _ _ => exact fun _ h => nomatch h
  | taken room _ _ _ => exact List.forall_mem_singleton.2 fun h => nomatch h
  | next room _ _ _ _ ih =>
    simp only [State.afterHit_instrAt] at ih
    exact List.forall_mem_cons.2 ⟨fun h => (nomatch h), ih⟩

/-- Every other record is that of the instruction at its pc (R102). -/
theorem of_instr (h : Packet n s new t) :
    ∀ f, f ∈ new → ∀ r, f.body = some r → ∃ i, s.instrAt f.pc = some i ∧ i.record = r := by
  induction h with
  | width s => exact fun _ h => nomatch h
  | full _ => exact fun _ h => nomatch h
  | fault room _ => exact List.forall_mem_singleton.2 fun _ h => nomatch h
  | miss room _ _ => exact fun _ h => nomatch h
  | taken room hi _ _ => exact List.forall_mem_singleton.2 fun r hr => ⟨_, hi, Option.some.inj hr⟩
  | next room hi _ _ _ ih =>
    simp only [State.afterHit_instrAt] at ih
    exact List.forall_mem_cons.2 ⟨fun r hr => ⟨_, hi, Option.some.inj hr⟩, ih⟩

/-! ### How a packet leaves the fetch state and the predictor -/

/-- The pc fetch goes on from: a fetch fault record leaves it, any other record sends it where fetch follows. -/
theorem pc_eq (h : Packet n s new t) :
    t.fetch.pc = new.getLast?.elim s.fetch.pc (fun f => if f.body.isSome then f.fetchedNextPc else f.pc) := by
  induction h with
  | width s => rfl
  | full _ => rfl
  | fault room _ => rfl
  | miss room _ _ => rfl
  | taken room _ _ _ => exact State.afterHit_pc ..
  | @next n s t i new room _ _ _ _ ih =>
    rw [ih, List.getLast?_cons]
    cases new.getLast? with
    | none => exact State.afterHit_pc ..
    | some f => rfl

theorem blocked (h : Packet n s new t) (hs : s.fetch.blocked = false) :
    t.fetch.blocked = true → ∃ f, new.getLast? = some f ∧ f.body = none := by
  induction h with
  | width s => simp [hs]
  | full _ => simp [hs]
  | fault room _ => exact fun _ => ⟨_, rfl, rfl⟩
  | miss room _ _ => simp [State.afterMiss, hs]
  | taken room _ _ _ => simp [hs]
  | next room _ _ _ _ ih =>
    intro hb
    obtain ⟨f, hlast, hbody⟩ := ih ((State.afterHit_blocked ..).trans hs) hb
    exact ⟨f, by rw [List.getLast?_cons, hlast]; rfl, hbody⟩

theorem pred_eq (h : Packet n s new t) : t.pred = s.predAfter new := by
  induction h with
  | width s => rfl
  | full _ => rfl
  | fault room _ => rfl
  | miss room _ _ => simp [State.afterMiss]
  | taken room _ _ _ => rw [State.predAfter_cons_hit, State.predAfter_nil]
  | next room _ _ _ _ ih => rw [State.predAfter_cons_hit, ih]

/-! ### A record in its place -/

/-- What holds of the record `f` of a packet that is delivered behind `pre` and before `post` (R104): there was room, only
the last record is a fault or predicted taken, and the record was read on a hit and carries the prediction the predictor
then made, which is what stalls fetch if it is taken. -/
structure RecordAt (s t : State) (pre : List FetchRec) (f : FetchRec) (post : List FetchRec) : Prop where
  room : s.fb.length + pre.length < s.cfg.fbCap
  goesOn : post ≠ [] → f.body ≠ none ∧ f.predTaken = false
  history : f.ghrSnap = (s.predAfter pre).ghr
  hit : f.body ≠ none → hitWay s.cfg.icache (s.icacheAfter pre) f.pc.toNat ≠ none
  predicted : ∀ r, f.body = some r → f.predTaken = (predict s.cfg (s.predAfter pre) r f.pc).1.taken
  target : ∀ r, f.body = some r → (predict s.cfg (s.predAfter pre) r f.pc).1.taken = true →
    f.predTarget = (predict s.cfg (s.predAfter pre) r f.pc).1.target ∧
    t.fetch.stall = (if (predict s.cfg (s.predAfter pre) r f.pc).1.stall1 then 1 else 0) ∧
    ((predict s.cfg (s.predAfter pre) r f.pc).1.stall1 = true → t.fetch.stallCause = .target)

/-- The record of a hit is in its place at the head of a packet: the rest of the packet is empty if it is taken. -/
theorem RecordAt.hitRecord {s t : State} {i : Instr} {post : List FetchRec} (room : s.fb.length < s.cfg.fbCap)
    (hit : hitWay s.cfg.icache s.icache s.fetch.pc.toNat ≠ none)
    (hpost : (s.hitPrediction i).taken = true → post = [] ∧ t = s.afterHit i) (hs : s.fetch.stall = 0) :
    RecordAt s t [] (s.hitRecord i) post where
  room := room
  goesOn hne := by
    refine ⟨fun h => (nomatch h), ?_⟩
    cases ht : (s.hitPrediction i).taken with
    | true => exact absurd (hpost ht).1 hne
    | false => exact ht
  history := rfl
  hit _ := hit
  predicted r hr := by
    cases hr
    rfl
  target r hr ht := by
    cases hr
    change (s.hitPrediction i).taken = true at ht
    rw [(hpost ht).2]
    exact ⟨if_pos ht, s.afterHit_stall_taken ht hs⟩

theorem RecordAt.fault {s t : State} (room : s.fb.length < s.cfg.fbCap) :
    RecordAt s t [] (faultRecord s.fetch.pc s.pred.ghr) [] where
  room := room
  goesOn hne := absurd rfl hne
  history := rfl
  hit h := absurd rfl h
  predicted _ h := nomatch h
  target _ h := nomatch h

/-- A place behind the first record of a packet is a place of the rest of it. -/
theorem RecordAt.cons {s t : State} {i : Instr} {pre post : List FetchRec} {f : FetchRec}
    (h : RecordAt (s.afterHit i) t pre f post) : RecordAt s t (s.hitRecord i :: pre) f post := by
  have hpred := s.predAfter_cons_hit i pre
  have hicache := s.icacheAfter_cons_hit i pre
  obtain ⟨room, goesOn, history, hit, predicted, target⟩ := h
  rw [State.afterHit_cfg, ← hicache] at hit
  rw [← hpred] at history
  rw [State.afterHit_cfg, ← hpred] at predicted target
  refine ⟨?_, goesOn, history, hit, predicted, target⟩
  simp only [State.afterHit_fb, State.afterHit_cfg, List.length_append, List.length_cons, List.length_nil] at room ⊢
  omega

theorem eq_of_singleton_eq_append_cons {x f : FetchRec} {pre post : List FetchRec} (h : [x] = pre ++ f :: post) :
    pre = [] ∧ x = f ∧ post = [] := by
  cases pre with
  | nil =>
    obtain ⟨hx, hpost⟩ := List.cons.inj h
    exact ⟨rfl, hx, hpost.symm⟩
  | cons y pre => simp at h

theorem recordAt (h : Packet n s new t) (hs : s.fetch.stall = 0) :
    ∀ pre f post, new = pre ++ f :: post → RecordAt s t pre f post := by
  induction h with
  | width s => simp
  | full _ => simp
  | miss room _ _ => simp
  | fault room _ =>
    intro pre f post hnew
    obtain ⟨rfl, rfl, rfl⟩ := eq_of_singleton_eq_append_cons hnew
    exact .fault room
  | taken room _ hit ht =>
    intro pre f post hnew
    obtain ⟨rfl, rfl, rfl⟩ := eq_of_singleton_eq_append_cons hnew
    exact .hitRecord room hit (fun _ => ⟨rfl, rfl⟩) hs
  | next room _ hit hnt _ ih =>
    intro pre f post hnew
    cases pre with
    | nil =>
      obtain ⟨rfl, rfl⟩ := List.cons.inj hnew
      exact .hitRecord room hit (fun ht => absurd (hnt.symm.trans ht) (by decide)) hs
    | cons x pre =>
      obtain ⟨rfl, hrest⟩ := List.cons.inj hnew
      exact (ih ((State.afterHit_stall _ hnt).trans hs) pre f post hrest).cons

/-! ### How a packet ends -/

/-- A packet of at most `n` records ends without a miss: at its width, at a full buffer, or at its last record (R105). -/
def Ended (n : Nat) (s : State) (new : List FetchRec) : Prop :=
  new.length = n ∨ s.cfg.fbCap ≤ s.fb.length + new.length ∨
    ∃ f, new.getLast? = some f ∧ (f.body = none ∨ f.predTaken = true)

/-- A packet whose first record is a hit not predicted taken ends as its rest does. -/
theorem ended_cons_iff {i : Instr} (hnt : (s.hitPrediction i).taken = false) :
    Ended (n + 1) s (s.hitRecord i :: new) ↔ Ended n (s.afterHit i) new := by
  have hlast : (∃ f, (s.hitRecord i :: new).getLast? = some f ∧ (f.body = none ∨ f.predTaken = true)) ↔
      ∃ f, new.getLast? = some f ∧ (f.body = none ∨ f.predTaken = true) := by
    rw [List.getLast?_cons]
    cases new.getLast? with
    | none => simp [State.hitRecord, fetchedRecord, hnt]
    | some f => simp
  have hroom : s.fb.length + (s.hitRecord i :: new).length = (s.afterHit i).fb.length + new.length := by
    simp only [State.afterHit_fb, List.length_append, List.length_cons, List.length_nil]
    omega
  unfold Ended
  rw [hlast, hroom, State.afterHit_cfg, List.length_cons, Nat.add_right_cancel_iff]

theorem not_ended_nil (room : s.fb.length < s.cfg.fbCap) : ¬ Ended (n + 1) s [] := by
  rintro (h | h | ⟨f, h, -⟩)
  · cases h
  · exact absurd h (Nat.not_le_of_lt room)
  · cases h

/-- The counts of a packet: an access and a hit for each record read, and `misses` accesses more (R67). -/
def countedMetrics (m : Metrics) (new : List FetchRec) (misses : Nat) : Metrics :=
  { m with
    icacheAccesses := m.icacheAccesses + new.countP (·.body.isSome) + misses
    icacheHits := m.icacheHits + new.countP (·.body.isSome) }

theorem countedMetrics_cons_hit {i : Instr} (hit : hitWay s.cfg.icache s.icache s.fetch.pc.toNat ≠ none)
    (misses : Nat) :
    countedMetrics (s.afterHit i).metrics new misses = countedMetrics s.metrics (s.hitRecord i :: new) misses := by
  have hread : (s.hitRecord i).body.isSome = true := rfl
  rw [State.afterHit_metrics s hit]
  unfold countedMetrics
  rw [List.countP_cons_of_pos (p := fun f : FetchRec => f.body.isSome) hread]
  congr 1 <;> (dsimp only; omega)

/-- A packet that ends without a miss has read the I-cache for its records alone, and stalls only for a record predicted
taken (R105, R106). -/
theorem of_ended (h : Packet n s new t) (hs : s.fetch.stall = 0) (hend : Ended n s new) :
    t.icache = s.icacheAfter new ∧ t.metrics = countedMetrics s.metrics new 0 ∧
      ((∀ f, new.getLast? = some f → f.predTaken = false) → t.fetch.stall = 0) := by
  induction h with
  | width s => exact ⟨rfl, rfl, fun _ => hs⟩
  | full _ => exact ⟨rfl, rfl, fun _ => hs⟩
  | fault room _ => exact ⟨rfl, rfl, fun _ => hs⟩
  | miss room _ _ => exact absurd hend (not_ended_nil room)
  | taken room _ hit ht =>
    refine ⟨?_, ?_, fun hlast => ?_⟩
    · rw [State.icacheAfter_cons_hit, State.icacheAfter_nil]
    · rw [← countedMetrics_cons_hit hit]
      rfl
    · exact absurd ((hlast _ rfl).symm.trans ht) (by decide)
  | @next n s t i new room _ hit hnt _ ih =>
    obtain ⟨hicache, hmetrics, hstall⟩ := ih ((State.afterHit_stall _ hnt).trans hs) ((ended_cons_iff hnt).1 hend)
    refine ⟨?_, ?_, fun hlast => hstall fun f hf => hlast f ?_⟩
    · rw [State.icacheAfter_cons_hit, hicache]
    · rw [← countedMetrics_cons_hit hit, hmetrics]
    · rw [List.getLast?_cons, hf]
      rfl

/-- A packet that does not end so ends at a miss, which fills the line, stalls fetch and is one access more (R105, R106). -/
theorem of_not_ended (h : Packet n s new t) (hend : ¬ Ended n s new) :
    s.instrAt t.fetch.pc ≠ none ∧ hitWay s.cfg.icache (s.icacheAfter new) t.fetch.pc.toNat = none ∧
      t.icache = (cacheAccess s.cfg.icache false (s.icacheAfter new) t.fetch.pc.toNat).2 ∧
      t.fetch.stall = s.cfg.icache.miss ∧ t.fetch.stallCause = .icacheMiss ∧
      t.metrics = countedMetrics s.metrics new 1 := by
  induction h with
  | width s => exact absurd (.inl rfl) hend
  | full hfull => exact absurd (.inr (.inl hfull)) hend
  | fault room _ => exact absurd (.inr (.inr ⟨_, rfl, .inl rfl⟩)) hend
  | taken room _ _ ht => exact absurd (.inr (.inr ⟨_, rfl, .inr ht⟩)) hend
  | @miss n s room hi hmiss =>
    refine ⟨hi, hmiss, rfl, rfl, rfl, ?_⟩
    show (s.icacheRead s.fetch.pc).2.metrics = _
    rw [State.icacheRead_metrics, hmiss]
    rfl
  | next room _ hit hnt _ ih =>
    have hrest := ih (fun h => hend ((ended_cons_iff hnt).2 h))
    rw [State.afterHit_instrAt, State.afterHit_cfg, ← State.icacheAfter_cons_hit, countedMetrics_cons_hit hit] at hrest
    exact hrest

end Packet

end Sys2Proof.Machine
end

section
/-!
SUPPORT. The packet of a tick that starts neither stalled nor blocked, clause by clause (R88, R102 to R106).
-/

namespace Sys2Proof.Machine

/-- At a pc that is misaligned or outside the text fetch delivers one fault record, reads no cache and is blocked (R103). -/
theorem State.fetchStage_fault {s : State} (hstall : s.fetch.stall = 0) (hblocked : s.fetch.blocked = false)
    (hwidth : 0 < s.cfg.fetchWidth) (room : s.fb.length < s.cfg.fbCap)
    (hout : s.fetch.pc.toNat % 4 ≠ 0 ∨ s.fetch.pc.toNat < s.cfg.textBase.toNat ∨
      s.cfg.textBase.toNat + 4 * s.imem.length ≤ s.fetch.pc.toNat) : s.fetchStage = s.afterFault := by
  have hnone : s.instrAt s.fetch.pc = none := by
    rw [Option.eq_none_iff_forall_ne_some]
    intro i hi
    obtain ⟨halign, hlo, hhi, -⟩ := (s.instrAt_iff s.fetch.pc i).1 hi
    omega
  obtain ⟨n, hn⟩ := Nat.exists_eq_add_one_of_ne_zero (Nat.ne_of_gt hwidth)
  rw [State.fetchStage_eq hstall hblocked, hn, fetchLoop_fault room hnone]

/-- At the pc of a record that hits the I-cache, fetch delivers it first, and it alone if it is predicted taken (R104). -/
theorem State.fetchStage_hit {s : State} (hstall : s.fetch.stall = 0) (hblocked : s.fetch.blocked = false)
    (hwidth : 0 < s.cfg.fetchWidth) (room : s.fb.length < s.cfg.fbCap) {i : Instr} (hi : s.instrAt s.fetch.pc = some i)
    (hit : hitWay s.cfg.icache s.icache s.fetch.pc.toNat ≠ none) :
    ∃ rest, s.fetchStage.fb = s.fb ++ s.hitRecord i :: rest ∧
      ((s.hitPrediction i).taken = true → rest = [] ∧ s.fetchStage = s.afterHit i) := by
  obtain ⟨n, hn⟩ := Nat.exists_eq_add_one_of_ne_zero (Nat.ne_of_gt hwidth)
  rw [State.fetchStage_eq hstall hblocked, hn, fetchLoop_hit room hi hit]
  cases (s.hitPrediction i).taken with
  | true => exact ⟨[], rfl, fun _ => ⟨rfl, rfl⟩⟩
  | false =>
    obtain ⟨rest, hrest⟩ := fetchLoop_packet n (s.afterHit i)
    refine ⟨rest, ?_, fun h => nomatch h⟩
    rw [if_neg (by decide), hrest.fb_eq, State.afterHit_fb, List.append_assoc, List.singleton_append]

/-- After a packet whose last record is not a fetch fault record, fetch is where that record sends it (R104). -/
theorem Packet.pc_of_last {n : Nat} {s t : State} {new : List FetchRec} (h : Packet n s new t) {f : FetchRec}
    (hlast : new.getLast? = some f) (hbody : f.body ≠ none) : t.fetch.pc = f.fetchedNextPc := by
  rw [h.pc_eq, hlast]
  exact if_pos (Option.isSome_iff_ne_none.2 hbody)

/-- Settles O55: the record an address names, the first record of a packet, and the facts about the packet. -/
theorem fetchDeliversInPathOrder : Obligations.FetchDeliversInPathOrder := by
  refine ⟨State.instrAt_iff, fun s hstall hblocked => ⟨?_, ?_, ?_⟩⟩
  · intro hwidth room hout
    rw [State.fetchStage_fault hstall hblocked hwidth room hout]
    exact ⟨rfl, rfl, rfl, rfl⟩
  · intro hwidth room i hi hit q
    obtain ⟨rest, hfb, htaken⟩ := State.fetchStage_hit hstall hblocked hwidth room hi hit
    refine ⟨s.hitRecord i, rest, hfb, rfl, rfl, rfl, rfl, rfl, fun ht => ?_⟩
    obtain ⟨hrest, hstage⟩ := htaken ht
    obtain ⟨hticks, hcause⟩ := s.afterHit_stall_taken ht hstall
    rw [hstage]
    exact ⟨hrest, (s.afterHit_pc i).trans (if_pos ht), hticks, hcause⟩
  · obtain ⟨new, hp⟩ := fetchLoop_packet s.cfg.fetchWidth s
    rw [← State.fetchStage_eq hstall hblocked] at hp
    refine ⟨new, hp.fb_eq, hp.chain, hp.head_pc, hp.fetchedNextPc_eq, hp.of_fault, fun f r hf => hp.of_instr f hf r,
      fun f => hp.pc_of_last, hp.blocked hblocked, hp.length_le, fun pre f post hnew => ?_, hp.pred_eq,
      hp.of_ended hstall, hp.of_not_ended⟩
    obtain ⟨room, goesOn, history, hit, predicted, target⟩ := hp.recordAt hstall pre f post hnew
    exact ⟨room, goesOn, history, fun r hr => ⟨hit (by simp [hr]), predicted r hr, target r hr⟩⟩

end Sys2Proof.Machine
end

section
/-!
SUPPORT. Data memory and the word accesses of `lw` and `sw`: the canonical form over a step, a word read where it was just
written, and the two faults of an access (R51 to R55, R165).
-/

namespace Sys2Proof.Machine

/-! ### The canonical form -/

/-- Of the ends of a sequential step a store alone writes memory. -/
theorem Ends.memWf {s t : State} (h : Ends s t) (hs : memWf s.mem = true) : memWf t.mem = true := by
  cases h with
  | raised c addr => exact hs
  | retired rd v next => simpa using hs
  | stored ea v next => simpa using memWf_memWriteWord hs _ _ _
  | halted next => simpa using hs

/-- A commit writes memory by a word write, and for a store alone (R143). -/
theorem memWf_commitOne {s : State} (hs : memWf s.mem = true) (e : RobEntry) : memWf (s.commitOne e).mem = true := by
  rw [State.commitOne_mem]
  split
  · exact memWf_memWriteWord hs _ _ _
  · exact hs

/-- No stage but commit writes memory, and commit keeps the canonical form. -/
theorem keptByParts_memWf : KeptByParts (fun s => memWf s.mem = true) where
  ends := Ends.memWf
  commit := State.commitStage_keeps (fun _ _ e _ hs => memWf_commitOne hs e)
    (fun _ _ e _ hs => memWf_commitOne hs e) (fun _ _ hs => hs)
  memory s hs := by rwa [State.memoryStage_mem]
  execute s hs := by rwa [State.executeStage_mem]
  issue s hs := by rwa [State.issueStage_mem]
  decode s hs := by rwa [State.decodeStage_mem]
  fetch s hs := by rwa [State.fetchStage_mem]
  clock _ _ _ hs := hs

/-- Settles O23: every part of a step keeps the canonical form. -/
theorem memoryStaysCanonical : Obligations.MemoryStaysCanonical :=
  fun _ _ => keptByParts_memWf.step

/-! ### A word read where it was written -/

/-- A word is its four bytes, the most significant first (R52). -/
theorem byteOf_append (v : Word) : byteOf v 3 ++ byteOf v 2 ++ byteOf v 1 ++ byteOf v 0 = v := by
  simp only [byteOf, BitVec.extractLsb'_append_extractLsb'_eq_extractLsb']
  exact BitVec.extractLsb'_eq_self

/-- A word read where it was just written is that word, in either byte order (R209). -/
theorem memReadWord_memWriteWord {m : List Host.Cell} (h : memWf m = true) (o : ByteOrder) (a : Nat) (v : Word) :
    memReadWord o (memWriteWord o m a v) a = v := by
  cases o <;> simp [memReadWord, memGet_memWriteWord h, lane, byteOf_append]

/-- A word write leaves every byte outside the four as it was. -/
theorem memGet_memWriteWord_of_outside {m : List Host.Cell} (h : memWf m = true) (o : ByteOrder) {a x : Nat} (v : Word)
    (hx : x < a ∨ a + 4 ≤ x) : memGet (memWriteWord o m a v) x = memGet m x := by
  rw [memGet_memWriteWord h, if_neg (by omega), if_neg (by omega), if_neg (by omega), if_neg (by omega)]

/-- Settles O16: the two facts above about the word write of the state's memory. -/
theorem readAfterWrite : Obligations.ReadAfterWrite :=
  fun _ _ v h => ⟨memReadWord_memWriteWord h _ _ v, fun _ ha => memGet_memWriteWord_of_outside h _ v ha⟩

/-! ### Accesses that raise -/

/-- A load or a store whose address raises ends the run with that fault at the effective address (R165). -/
theorem exec_lw_sw_of_addressFault {s : State} {r : Reg} {imm : Word} {c : Cause} (q : Reg)
    (h : addressFault s.cfg.memSize (s.reg r + imm) = some c) :
    exec (.lw q r imm) s = .next (s.raiseSequential c (s.reg r + imm)) ∧
      exec (.sw r q imm) s = .next (s.raiseSequential c (s.reg r + imm)) := by
  simp only [exec, execLw, execSw, effectiveAddress_eq, h, and_self]

/-- Settles O15: alignment is checked before bounds, and the fault state is that of a raise. -/
theorem memoryAccessFaults : Obligations.MemoryAccessFaults := by
  intro s r q imm
  have raises : ∀ c, addressFault s.cfg.memSize (s.reg r + imm) = some c →
      (∃ t, exec (.lw q r imm) s = .next t ∧ FaultStep s t c (s.reg r + imm)) ∧
        (∃ t, exec (.sw r q imm) s = .next t ∧ FaultStep s t c (s.reg r + imm)) := by
    intro c h
    obtain ⟨hlw, hsw⟩ := exec_lw_sw_of_addressFault q h
    exact ⟨⟨_, hlw, faultStep_raise ..⟩, ⟨_, hsw, faultStep_raise ..⟩⟩
  refine ⟨fun misaligned => raises _ ?_, fun aligned outside => raises _ ?_⟩
  · rw [addressFault_eq, if_pos misaligned]
  · rw [addressFault_eq, if_neg (not_not_intro aligned), if_pos outside]

end Sys2Proof.Machine
end

section
/-!
SUPPORT. The cache counters: only an access of a cache moves them, by one access and at most one hit (R45, R67 to R69).
-/

namespace Sys2Proof.Machine

/-! ### The counters of the two caches -/

/-- The counters of the two caches. -/
structure CacheCounts where
  icacheAccesses : Nat
  icacheHits : Nat
  dcacheAccesses : Nat
  dcacheHits : Nat

/-- The cache counters among the metric counters. -/
def Metrics.cacheCounts (m : Metrics) : CacheCounts :=
  ⟨m.icacheAccesses, m.icacheHits, m.dcacheAccesses, m.dcacheHits⟩

/-- The invariant depends on the cache counters alone. -/
theorem CacheCountsSound.congr {s t : State} (hs : CacheCountsSound s)
    (h : t.metrics.cacheCounts = s.metrics.cacheCounts) : CacheCountsSound t := by
  simp only [Metrics.cacheCounts, CacheCounts.mk.injEq] at h
  obtain ⟨hia, hih, hda, hdh⟩ := h
  unfold CacheCountsSound
  rw [hia, hih, hda, hdh]
  exact hs

/-! ### The accesses -/

/-- A D-cache access counts itself, and its hit (R68). -/
theorem State.dcacheAccess_metrics (s : State) (write : Bool) (a : Word) :
    (s.dcacheAccess write a).2.metrics =
      { s.metrics with
        dcacheAccesses := s.metrics.dcacheAccesses + 1
        dcacheHits := s.metrics.dcacheHits + (if (hitWay s.cfg.dcache s.dcache a.toNat).isSome then 1 else 0) } := by
  rw [← cacheAccess_hit s.cfg.dcache write]
  rfl

theorem CacheCountsSound.dcacheAccess {s : State} (hs : CacheCountsSound s) (write : Bool) (a : Word) :
    CacheCountsSound (s.dcacheAccess write a).2 := by
  obtain ⟨hi, hd⟩ := hs
  refine ⟨hi, ?_⟩
  rw [State.dcacheAccess_metrics]
  dsimp only
  split <;> omega

theorem CacheCountsSound.icacheRead {s : State} (hs : CacheCountsSound s) (p : Word) :
    CacheCountsSound (s.icacheRead p).2 := by
  obtain ⟨hi, hd⟩ := hs
  refine ⟨?_, hd⟩
  rw [State.icacheRead_metrics]
  dsimp only
  split <;> omega

/-! ### The parts of a step -/

/-- A sequential step accesses no cache (R98). -/
theorem Ends.cacheCounts {s t : State} (h : Ends s t) : t.metrics.cacheCounts = s.metrics.cacheCounts := by
  obtain ⟨n, hn⟩ := h.sameEngine.metrics
  rw [hn]
  rfl

theorem State.commitControl_cacheCounts (s : State) (e : RobEntry) :
    (s.commitControl e).metrics.cacheCounts = s.metrics.cacheCounts := by
  unfold State.commitControl
  split <;> rfl

/-- A commit accesses the D-cache for a store alone (R143). -/
theorem CacheCountsSound.commitOne {s : State} (hs : CacheCountsSound s) (e : RobEntry) :
    CacheCountsSound (s.commitOne e) := by
  have register : CacheCountsSound (s.commitRegister s.robHead e) := hs.congr (by simp)
  have store : CacheCountsSound ((s.commitRegister s.robHead e).commitStore e) := by
    unfold State.commitStore
    split
    · exact CacheCountsSound.dcacheAccess (register.congr rfl) true e.stAddr
    · exact register
  refine store.congr ?_
  calc (s.commitOne e).metrics.cacheCounts
      = ((((s.commitRegister s.robHead e).commitStore e).commitLsq e).commitControl e).metrics.cacheCounts := rfl
    _ = (((s.commitRegister s.robHead e).commitStore e).commitLsq e).metrics.cacheCounts :=
        State.commitControl_cacheCounts ..
    _ = ((s.commitRegister s.robHead e).commitStore e).metrics.cacheCounts := by rw [State.commitLsq_metrics]

/-- A load accesses the D-cache if nothing forwards to it (R133). -/
theorem CacheCountsSound.loadAccess {s : State} (hs : CacheCountsSound s) (a : Word) (f : Option LsqEntry) :
    CacheCountsSound (s.loadAccess a f).2.2 := by
  cases f with
  | some st => exact hs
  | none =>
    have access := hs.dcacheAccess false a
    simp only [State.loadAccess]
    split
    · exact access
    · exact access.congr rfl

theorem CacheCountsSound.startLoad {s : State} (hs : CacheCountsSound s) : CacheCountsSound s.startLoad := by
  unfold State.startLoad
  split
  · exact hs
  · split
    · exact hs
    · rename_i l older _
      exact (hs.loadAccess l.addr (forwardingStore older l.addr)).congr rfl

theorem CacheCountsSound.memoryStage {s : State} (hs : CacheCountsSound s) : CacheCountsSound s.memoryStage :=
  hs.startLoad.congr (by rw [State.memoryStage, State.countPort_metrics])

theorem State.selectStage_cacheCounts (s : State) : s.selectStage.metrics.cacheCounts = s.metrics.cacheCounts := by
  have raw : ∀ (t : State) (n : Nat), (t.countRaw n).metrics.cacheCounts = t.metrics.cacheCounts := by
    intro t n
    unfold State.countRaw
    split <;> rfl
  simp only [State.selectStage, raw, State.dispatchClass_metrics]

theorem State.advanceUnit_cacheCounts (s : State) (k : FuClass) (j : Nat) :
    (s.advanceUnit k j).metrics.cacheCounts = s.metrics.cacheCounts := by
  obtain ⟨-, h⟩ | ⟨-, h⟩ | ⟨-, -, h⟩ := s.advanceUnit_cases k j <;> rw [h]
  · rw [State.setUnit_metrics, State.finishUnit_metrics]
    rfl
  · rfl

theorem decodeLoop_cacheCounts (n : Nat) (r : Room) (s : State) :
    (decodeLoop n r s).metrics.cacheCounts = s.metrics.cacheCounts := by
  induction n generalizing r s with
  | zero => rfl
  | succ n ih =>
    unfold decodeLoop
    split
    · rfl
    · split
      · rfl
      · split
        · rfl
        · split
          · rfl
          · rw [ih, State.allocate_metrics]

theorem State.decodeStage_cacheCounts (s : State) : s.decodeStage.metrics.cacheCounts = s.metrics.cacheCounts := by
  unfold State.decodeStage
  split
  · exact decodeLoop_cacheCounts ..
  · rfl

/-- A packet reads the I-cache for each record of an instruction, and once more if it ends at a miss (R105). -/
theorem CacheCountsSound.packet {n : Nat} {s t : State} {new : List FetchRec} (h : Packet n s new t)
    (hs : CacheCountsSound s) : CacheCountsSound t := by
  have afterHit : ∀ (s : State) (i : Instr), CacheCountsSound s → CacheCountsSound (s.afterHit i) :=
    fun s i hs => (hs.icacheRead s.fetch.pc).congr (by rw [State.afterHit, State.deliver_metrics])
  induction h with
  | width s => exact hs
  | full _ => exact hs
  | fault _ _ => exact hs.congr rfl
  | miss _ _ _ => exact (hs.icacheRead _).congr rfl
  | taken _ _ _ _ => exact afterHit _ _ hs
  | next _ _ _ _ _ ih => exact ih (afterHit _ _ hs)

theorem CacheCountsSound.fetchStage {s : State} (hs : CacheCountsSound s) : CacheCountsSound s.fetchStage := by
  unfold State.fetchStage
  split
  · refine hs.congr ?_
    unfold State.fetchStalled
    dsimp only
    split <;> rfl
  · split
    · exact hs
    · obtain ⟨new, h⟩ := fetchLoop_packet s.cfg.fetchWidth s
      exact hs.packet h

/-- Every access counts at most one hit, and no part of a step moves the cache counters otherwise. -/
theorem keptByParts_cacheCountsSound : KeptByParts CacheCountsSound where
  ends h hs := hs.congr h.cacheCounts
  commit := State.commitStage_keeps (fun _ _ e _ hs => hs.commitOne e)
    (fun s _ e _ hs => (hs.commitOne e).congr (by rw [State.squashAfter_metrics])) (fun _ _ hs => hs)
  memory _ hs := hs.memoryStage
  execute := State.executeStage_keeps (fun s hs => hs.congr s.selectStage_cacheCounts)
    (fun s k j hs => hs.congr (s.advanceUnit_cacheCounts k j)) (fun _ _ hs => hs)
    (fun s r hs => hs.congr (by rw [State.broadcastOne_metrics]))
  issue s hs := hs.congr (by rw [State.issueStage_metrics])
  decode s hs := hs.congr s.decodeStage_cacheCounts
  fetch _ hs := hs.fetchStage
  clock _ _ _ hs := hs

/-- Settles O32: the step lemma above, and for each cache the access that counts itself and its hit. -/
theorem cacheCountsKept : Obligations.CacheCountsKept := by
  refine ⟨fun s t => keptByParts_cacheCountsSound.step, fun s write a hs => ?_, fun s p hs => ?_⟩
  · obtain ⟨-, hd⟩ := hs
    refine ⟨rfl, ?_⟩
    rw [State.dcacheAccess_metrics]
    cases hitWay s.cfg.dcache s.dcache a.toNat with
    | none => simp; omega
    | some w => simp
  · obtain ⟨hi, -⟩ := hs
    refine ⟨rfl, ?_⟩
    rw [State.icacheRead_metrics]
    cases hitWay s.cfg.icache s.icache p.toNat with
    | none => simp; omega
    | some w => simp

end Sys2Proof.Machine
end

section
/-!
SUPPORT. The memory stage: the store that forwards to a load, the load a free port starts, and the tick a busy port counts
(R133 to R137).
-/

namespace Sys2Proof.Machine

/-! ### The forwarding store -/

theorem forwards_iff (a : Word) (e : LsqEntry) :
    forwards a e = true ↔ e.kind = .store ∧ e.fault = none ∧ e.addr = a := by
  simp [forwards, and_assoc]

/-- A store that forwards, with none younger that does, is the forwarding store (R133). -/
theorem forwardingStore_of_youngest {near far : List LsqEntry} {st : LsqEntry} {a : Word} (h : forwards a st = true)
    (hnear : ∀ x, x ∈ near → forwards a x ≠ true) : forwardingStore (near ++ st :: far) a = some st := by
  rw [forwardingStore, List.find?_append, List.find?_eq_none.2 hnear, List.find?_cons_of_pos h]
  rfl

theorem forwardingStore_none {older : List LsqEntry} {a : Word} (h : ∀ x, x ∈ older → forwards a x ≠ true) :
    forwardingStore older a = none := List.find?_eq_none.2 h

/-! ### The D-cache access of a load -/

/-- A load that hits takes one tick (R64). -/
theorem State.loadAccess_hit {s : State} {a : Word} (hit : hitWay s.cfg.dcache s.dcache a.toNat ≠ none) :
    s.loadAccess a none = (s.readWord a, 1, (s.dcacheAccess false a).2) := by
  have hread : (s.dcacheAccess false a).1 = true := by
    rw [State.dcacheAccess, cacheAccess_hit, Option.isSome_iff_ne_none]
    exact hit
  rw [State.loadAccess]
  dsimp only
  rw [hread]
  rfl

/-- A load that misses takes the miss penalty, and counts as many stalled ticks (R64, R137). -/
theorem State.loadAccess_miss {s : State} {a : Word} (miss : hitWay s.cfg.dcache s.dcache a.toNat = none) :
    s.loadAccess a none = (s.readWord a, s.cfg.dcache.miss, (s.dcacheAccess false a).2.count
      (fun m => { m with stallDcacheMiss := m.stallDcacheMiss + s.cfg.dcache.miss })) := by
  have hread : (s.dcacheAccess false a).1 = false := by
    rw [State.dcacheAccess, cacheAccess_hit, miss]
    rfl
  rw [State.loadAccess]
  dsimp only
  rw [hread]
  rfl

/-! ### The port -/

/-- A busy port starts nothing (R135). -/
theorem State.memoryStage_busy {s : State} (busy : s.mport.busy = true) : s.memoryStage = s.countPort := by
  rw [State.memoryStage, State.startLoad, if_pos busy]

/-- A busy port with a tick to go after this one counts down (R135). -/
theorem State.countPort_waits {s : State} (busy : s.mport.busy = true) (h : 2 ≤ s.mport.remaining) :
    s.countPort = { s with mport := { s.mport with remaining := s.mport.remaining - 1 } } := by
  rw [State.countPort, if_pos busy, if_neg (by omega)]

/-- A busy port with no tick to go after this one posts its result and is free (R135). -/
theorem State.countPort_posts {s : State} (busy : s.mport.busy = true) (h : s.mport.remaining ≤ 1) :
    s.countPort =
      { s with
        mport := { s.mport with busy := false, remaining := 0 }
        cdbq := s.cdbq ++ [s.loadResult] } := by
  have hlast : s.mport.remaining - 1 = 0 := Nat.sub_eq_zero_of_le h
  rw [State.countPort, if_pos busy, hlast, if_pos rfl]

/-! ### A load that starts -/

/-- A memory stage in which a free port starts the load `l`: its access takes `latency` ticks, answers `v` and leaves the
state `t`. In the same tick the port counts down once (R135). -/
structure LoadStarts (s : State) (l : LsqEntry) (v : Word) (latency : Nat) (t : State) : Prop where
  lsq : s.memoryStage.lsq = setLoadState .accessing l.rob s.lsq
  dcache : s.memoryStage.dcache = t.dcache
  metrics : s.memoryStage.metrics = t.metrics
  value : s.memoryStage.mport.value = v
  posts : latency ≤ 1 → s.memoryStage.mport.busy = false ∧
    ∃ r, s.memoryStage.cdbq = s.cdbq ++ [r] ∧ r.value = v ∧ r.rob = l.rob ∧ r.seq = l.seq ∧ r.exception = none ∧
      r.lsq = some l.rob
  waits : 2 ≤ latency → s.memoryStage.cdbq = s.cdbq ∧ s.memoryStage.mport.busy = true ∧
    s.memoryStage.mport.rob = l.rob ∧ s.memoryStage.mport.seq = l.seq ∧ s.memoryStage.mport.remaining = latency - 1

/-- A free port starts the oldest eligible load with the access its forwarding store gives it (R133, R135). -/
theorem State.loadStarts {s : State} {l : LsqEntry} {older : List LsqEntry} (free : s.mport.busy = false)
    (h : oldestEligible [] s.lsq = some (l, older)) {v : Word} {latency : Nat} {t : State}
    (access : s.loadAccess l.addr (forwardingStore older l.addr) = (v, latency, t)) : LoadStarts s l v latency t := by
  have same : t.lsq = s.lsq ∧ t.cdbq = s.cdbq := by
    have hlsq := s.loadAccess_lsq l.addr (forwardingStore older l.addr)
    have hcdbq := s.loadAccess_cdbq l.addr (forwardingStore older l.addr)
    rw [access] at hlsq hcdbq
    exact ⟨hlsq, hcdbq⟩
  have stage : s.memoryStage = State.countPort
      { t with mport := ⟨true, latency, l.seq, l.rob, v⟩, lsq := setLoadState .accessing l.rob t.lsq } := by
    rw [State.memoryStage, State.startLoad, if_neg (by simp [free]), h]
    dsimp only
    rw [access]
  rcases Nat.lt_or_ge latency 2 with short | long
  · rw [State.countPort_posts rfl (Nat.le_of_lt_succ short)] at stage
    constructor <;> rw [stage]
    · rw [same.1]
    · exact fun _ => ⟨rfl, _, by rw [same.2], rfl, rfl, rfl, rfl, rfl⟩
    · exact fun long => absurd short (Nat.not_lt_of_le long)
  · rw [State.countPort_waits rfl long] at stage
    constructor <;> rw [stage]
    · rw [same.1]
    · exact fun short => absurd long (Nat.not_le_of_lt (Nat.lt_succ_of_le short))
    · exact fun _ => ⟨same.2, rfl, rfl, rfl, rfl⟩

/-- The started load takes the data of the youngest older store that forwards, in one tick (R133). -/
theorem LoadStarts.of_forward {s : State} {l st : LsqEntry} {near far : List LsqEntry} (free : s.mport.busy = false)
    (h : oldestEligible [] s.lsq = some (l, near ++ st :: far)) (hst : forwards l.addr st = true)
    (hnear : ∀ x, x ∈ near → forwards l.addr x ≠ true) : LoadStarts s l st.data 1 s :=
  State.loadStarts free h (by rw [forwardingStore_of_youngest hst hnear, State.loadAccess_forward])

/-- With no store that forwards, and a hit, the started load reads memory in one tick (R134). -/
theorem LoadStarts.of_hit {s : State} {l : LsqEntry} {older : List LsqEntry} (free : s.mport.busy = false)
    (h : oldestEligible [] s.lsq = some (l, older)) (hnone : ∀ x, x ∈ older → forwards l.addr x ≠ true)
    (hit : hitWay s.cfg.dcache s.dcache l.addr.toNat ≠ none) :
    LoadStarts s l (s.readWord l.addr) 1 (s.dcacheAccess false l.addr).2 :=
  State.loadStarts free h (by rw [forwardingStore_none hnone, State.loadAccess_hit hit])

/-- With no store that forwards, and a miss, the started load reads memory in the miss penalty (R134). -/
theorem LoadStarts.of_miss {s : State} {l : LsqEntry} {older : List LsqEntry} (free : s.mport.busy = false)
    (h : oldestEligible [] s.lsq = some (l, older)) (hnone : ∀ x, x ∈ older → forwards l.addr x ≠ true)
    (miss : hitWay s.cfg.dcache s.dcache l.addr.toNat = none) :
    LoadStarts s l (s.readWord l.addr) s.cfg.dcache.miss ((s.dcacheAccess false l.addr).2.count
      (fun m => { m with stallDcacheMiss := m.stallDcacheMiss + s.cfg.dcache.miss })) :=
  State.loadStarts free h (by rw [forwardingStore_none hnone, State.loadAccess_miss miss])

/-- Settles O46: the two ticks of a busy port, and a load started with forwarded data, by a hit, and by a miss. -/
theorem loadsForwardOrRead : Obligations.LoadsForwardOrRead := by
  refine ⟨fun s n busy h => ?_, fun s busy h => ?_, fun s l older free h => ⟨?_, ?_, fun hnone => ?_⟩⟩
  · rw [State.memoryStage_busy busy, State.countPort_waits busy (by omega), h]
    rfl
  · rw [State.memoryStage_busy busy, State.countPort_posts busy (Nat.le_of_eq h)]
    rfl
  · exact (State.loadStarts free h rfl).lsq
  · rintro near st far rfl hkind hfault haddr hnear
    have start := LoadStarts.of_forward free h ((forwards_iff ..).2 ⟨hkind, hfault, haddr⟩)
      (fun x hx => mt (forwards_iff ..).1 (hnear x hx))
    exact ⟨start.dcache, start.metrics, start.posts (le_refl 1)⟩
  · have noForward : ∀ x, x ∈ older → forwards l.addr x ≠ true := fun x hx => mt (forwards_iff ..).1 (hnone x hx)
    rcases eq_or_ne (hitWay s.cfg.dcache s.dcache l.addr.toNat) none with miss | hit
    · have start := LoadStarts.of_miss free h noForward miss
      have stalls : s.memoryStage.metrics.stallDcacheMiss = s.metrics.stallDcacheMiss + s.cfg.dcache.miss :=
        congrArg Metrics.stallDcacheMiss start.metrics
      refine ⟨start.dcache, congrArg Metrics.dcacheAccesses start.metrics, ?_, start.value,
        fun hit => absurd miss hit, fun _ one => ?_, fun _ long => ?_⟩
      · rw [start.metrics, State.count_metrics, State.dcacheAccess_metrics]
        simp [miss]
      · obtain ⟨free', posted⟩ := start.posts (Nat.le_of_eq one)
        exact ⟨free', by rw [stalls, one], posted⟩
      · obtain ⟨cdbq, busy, rob, seq, remaining⟩ := start.waits long
        exact ⟨cdbq, busy, rob, seq, remaining, stalls⟩
    · have start := LoadStarts.of_hit free h noForward hit
      obtain ⟨free', posted⟩ := start.posts (le_refl 1)
      refine ⟨start.dcache, congrArg Metrics.dcacheAccesses start.metrics, ?_, start.value,
        fun _ => ⟨free', by rw [start.metrics]; rfl, posted⟩,
        fun miss _ => absurd miss hit, fun miss _ => absurd miss hit⟩
      rw [start.metrics, State.dcacheAccess_metrics]
      simp [hit, Option.isSome_iff_ne_none]

end Sys2Proof.Machine
end

section
/-!
SUPPORT. What an access does to the lines of a cache: the line it hits or the victim it replaces, and no other (R63 to R65).
-/

namespace Sys2Proof.Machine

/-! ### The set of an address -/

/-- In a cache of its shape the set of every address is there, and has a line. -/
theorem CacheShape.exists_set {g : CacheConfig} {c : Cache} (h : CacheShape g c) (hsets : 1 ≤ g.sets)
    (hassoc : 1 ≤ g.assoc) (a : Nat) : ∃ ways, c.sets[cacheSet g a]? = some ways ∧ ways ≠ [] := by
  have hlt : cacheSet g a < c.sets.length := by
    rw [h.sets]
    exact Nat.mod_lt _ hsets
  refine ⟨c.sets[cacheSet g a], List.getElem?_eq_getElem hlt, List.ne_nil_of_length_pos ?_⟩
  rw [h.ways _ (List.getElem_mem hlt)]
  exact hassoc

theorem entryAt_of_getElem? {α : Type} {d x : α} {l : List α} {i : Nat} (h : l[i]? = some x) : entryAt d l i = x := by
  rw [entryAt_eq_getD, List.getD_eq_getElem?_getD, h]
  rfl

/-- The lines of a set, by way. -/
theorem Cache.lineAt_of_set {c : Cache} {x : Nat} {ways : List CacheLine} (h : c.sets[x]? = some ways) (y : Nat) :
    c.lineAt x y = ways[y]? := by
  rw [Cache.lineAt, h]
  rfl

/-! ### Hits -/

theorem lineHit_iff (tag : Nat) (l : CacheLine) : lineHit tag l = true ↔ l.valid = true ∧ l.tag = tag := by
  simp [lineHit]

section

variable {g : CacheConfig} {c : Cache} {a : Nat} {ways : List CacheLine}

/-- An address misses exactly if no valid line of its set has its tag (R63). -/
theorem hitWay_eq_none_iff (hset : c.sets[cacheSet g a]? = some ways) :
    hitWay g c a = none ↔ ∀ l, l ∈ ways → l.valid = true → l.tag ≠ cacheTag g a := by
  rw [hitWay, entryAt_of_getElem? hset, firstIdx_none]
  simp [← Bool.not_eq_true, lineHit_iff]

/-- The way that hits holds a valid line with the tag (R63). -/
theorem exists_line_of_hitWay {w : Nat} (hset : c.sets[cacheSet g a]? = some ways) (hit : hitWay g c a = some w) :
    ∃ l, c.lineAt (cacheSet g a) w = some l ∧ l.valid = true ∧ l.tag = cacheTag g a := by
  rw [hitWay, entryAt_of_getElem? hset] at hit
  obtain ⟨l, hl, htag, -⟩ := firstIdx_some hit
  exact ⟨l, (Cache.lineAt_of_set hset w).trans hl, (lineHit_iff ..).1 htag⟩

/-- An address hits where a valid line of its set has its tag (R63). -/
theorem hitWay_ne_none_of_line {w : Nat} {l : CacheLine} (hl : c.lineAt (cacheSet g a) w = some l)
    (hvalid : l.valid = true) (htag : l.tag = cacheTag g a) : hitWay g c a ≠ none := by
  obtain ⟨ways, hset, hw⟩ := Option.bind_eq_some_iff.1 hl
  exact fun hnone => (hitWay_eq_none_iff hset).1 hnone l (List.mem_of_getElem? hw) hvalid htag

/-! ### The line an access changes -/

/-- A hit stamps its line, and a write makes it dirty (R64, R65). -/
theorem cacheAccess_of_hit {w : Nat} (hit : hitWay g c a = some w) (write : Bool) :
    (cacheAccess g write c a).2 =
      ⟨updateLine g c.sets a w (fun l => { l with lru := c.stamp + 1, dirty := l.dirty || write }), c.stamp + 1⟩ := by
  rw [cacheAccess, hit]

/-- A miss replaces the victim of the set (R64, R65). -/
theorem cacheAccess_of_miss (hset : c.sets[cacheSet g a]? = some ways) (miss : hitWay g c a = none) (write : Bool) :
    (cacheAccess g write c a).2 =
      ⟨updateLine g c.sets a (victimWay ways) (fun _ => ⟨true, cacheTag g a, write, c.stamp + 1⟩), c.stamp + 1⟩ := by
  rw [cacheAccess, miss, entryAt_of_getElem? hset]

theorem lineAt_cacheAccess_of_hit {w : Nat} (hset : c.sets[cacheSet g a]? = some ways) (hit : hitWay g c a = some w)
    (write : Bool) :
    ∃ l, c.lineAt (cacheSet g a) w = some l ∧ l.valid = true ∧ l.tag = cacheTag g a ∧
      (cacheAccess g write c a).2.lineAt (cacheSet g a) w =
        some ⟨true, cacheTag g a, l.dirty || write, c.stamp + 1⟩ := by
  obtain ⟨l, hl, hvalid, htag⟩ := exists_line_of_hitWay hset hit
  refine ⟨l, hl, hvalid, htag, ?_⟩
  rw [cacheAccess_of_hit hit, Cache.lineAt_updateLine, if_pos rfl]
  exact (congrArg (Option.map _) hl).trans (by rw [Option.map_some, hvalid, htag])

theorem lineAt_cacheAccess_of_miss (hset : c.sets[cacheSet g a]? = some ways) (hne : ways ≠ [])
    (miss : hitWay g c a = none) (write : Bool) :
    (cacheAccess g write c a).2.lineAt (cacheSet g a) (victimWay ways) =
      some ⟨true, cacheTag g a, write, c.stamp + 1⟩ := by
  have hl : c.lineAt (cacheSet g a) (victimWay ways) = some (ways[victimWay ways]'(victimWay_lt hne)) :=
    (Cache.lineAt_of_set hset _).trans (List.getElem?_eq_getElem _)
  rw [cacheAccess_of_miss hset miss, Cache.lineAt_updateLine, if_pos rfl]
  exact congrArg (Option.map _) hl

/-- Every line but the one that hits, or the victim of a miss, is as before. -/
theorem lineAt_cacheAccess_of_ne (hset : c.sets[cacheSet g a]? = some ways) (write : Bool) {x y : Nat}
    (h : (x, y) ≠ (cacheSet g a, (hitWay g c a).getD (victimWay ways))) :
    (cacheAccess g write c a).2.lineAt x y = c.lineAt x y := by
  cases hit : hitWay g c a with
  | none =>
    rw [hit, Option.getD_none] at h
    rw [cacheAccess_of_miss hset hit, Cache.lineAt_updateLine, if_neg h]
    rfl
  | some w =>
    rw [hit, Option.getD_some] at h
    rw [cacheAccess_of_hit hit, Cache.lineAt_updateLine, if_neg h]
    rfl

/-- After an access its address hits. -/
theorem hitWay_cacheAccess_ne_none (hset : c.sets[cacheSet g a]? = some ways) (hne : ways ≠ []) (write : Bool) :
    hitWay g (cacheAccess g write c a).2 a ≠ none := by
  cases hit : hitWay g c a with
  | none => exact hitWay_ne_none_of_line (lineAt_cacheAccess_of_miss hset hne hit write) rfl rfl
  | some w =>
    obtain ⟨l, -, -, -, hl⟩ := lineAt_cacheAccess_of_hit hset hit write
    exact hitWay_ne_none_of_line hl rfl rfl

end

/-! ### The victim -/

/-- The victim of a set is an invalid line if there is one, else a line with the lowest stamp (R64). -/
theorem victimWay_spec {ways : List CacheLine} (hne : ways ≠ []) :
    ∃ l, ways[victimWay ways]? = some l ∧ ((∃ x, x ∈ ways ∧ x.valid = false) → l.valid = false) ∧
      ((∀ x, x ∈ ways → x.valid = true) → ∀ x, x ∈ ways → l.lru ≤ x.lru) := by
  unfold victimWay
  split
  · rename_i w hw
    obtain ⟨l, hl, hinvalid, -⟩ := firstIdx_some hw
    have invalid : l.valid = false := by simpa using hinvalid
    refine ⟨l, hl, fun _ => invalid, fun hall => ?_⟩
    exact absurd ((hall l (List.mem_of_getElem? hl)).symm.trans invalid) (by decide)
  · rename_i hnone
    have valid : ∀ x, x ∈ ways → x.valid = true := by simpa using firstIdx_none.1 hnone
    split
    · rename_i w k hw
      obtain ⟨l, hl, hkey, hmin⟩ := lowestIdx_some hw
      refine ⟨l, hl, fun ⟨x, hx, hinvalid⟩ => ?_, fun _ x hx => ?_⟩
      · exact absurd ((valid x hx).symm.trans hinvalid) (by decide)
      · rw [Option.some.inj hkey]
        exact hmin x x.lru hx rfl
    · rename_i hlow
      obtain ⟨x, hx⟩ := List.exists_mem_of_ne_nil ways hne
      exact nomatch lowestIdx_none.1 hlow x hx

/-- Settles O53: the shape, the hit and the lines after an access, and the victim. -/
theorem cacheFillsLine : Obligations.CacheFillsLine := by
  refine ⟨fun g c write a hsets hassoc hshape => ?_, fun g c write a hsets hassoc hshape => ?_,
    fun ways => victimWay_spec⟩
  · obtain ⟨ways, hset, hne⟩ := hshape.exists_set hsets hassoc a
    refine ⟨hitWay_cacheAccess_ne_none hset hne write, cacheAccess_shape g g write a hshape, ?_⟩
    rw [cacheAccess_hit, Option.isSome_iff_ne_none]
  · obtain ⟨ways, hset, hne⟩ := hshape.exists_set hsets hassoc a
    exact ⟨ways, hset, cacheAccess_stamp g write c a, hitWay_eq_none_iff hset,
      fun w hit => lineAt_cacheAccess_of_hit hset hit write, fun miss => lineAt_cacheAccess_of_miss hset hne miss write,
      fun x y => lineAt_cacheAccess_of_ne hset write⟩

end Sys2Proof.Machine
end

section
/-!
SUPPORT. Decoding and encoding are inverse: a word is its fields put together, and the test the decoder makes on a word is
a test on its fields (R73, R74, R79, R80).
-/

namespace Sys2Proof

open Sys2Proof.Machine (readsRs1 readsRs2 writesRd)

/-! ### Opcode numbers -/

/-- The `k`-th opcode of R76 has the number `k + 1`. -/
theorem Opcode.number_getElem_all : ∀ k : Fin 26, (Opcode.all[k]).number.toNat = k + 1 := by decide

theorem Opcode.mem_all (o : Opcode) : o ∈ Opcode.all := by cases o <;> decide

theorem Opcode.number_range (o : Opcode) : 1 ≤ o.number.toNat ∧ o.number.toNat ≤ 0x1A := by
  obtain ⟨k, hk, rfl⟩ := List.getElem_of_mem o.mem_all
  have hnumber : (Opcode.all[k]).number.toNat = k + 1 := Opcode.number_getElem_all ⟨k, hk⟩
  have hlength : k < 26 := hk
  omega

theorem Opcode.ofNumber?_eq_some_iff {n : BitVec 8} {o : Opcode} : Opcode.ofNumber? n = some o ↔ o.number = n := by
  constructor
  · intro h
    simpa using List.find?_some h
  · rintro rfl
    exact o.ofNumber?_number

/-- The numbers outside the op column of R76. -/
theorem Opcode.ofNumber?_eq_none_iff {n : BitVec 8} : Opcode.ofNumber? n = none ↔ n.toNat = 0 ∨ 0x1B ≤ n.toNat := by
  constructor
  · intro hnone
    by_contra hrange
    have hlt : n.toNat - 1 < 26 := by omega
    have hnumber : (Opcode.all[n.toNat - 1]'hlt).number = n := by
      apply BitVec.eq_of_toNat_eq
      have := Opcode.number_getElem_all ⟨n.toNat - 1, hlt⟩
      simp only [Fin.getElem_fin] at this
      omega
    exact absurd (hnone.symm.trans (Opcode.ofNumber?_eq_some_iff.2 hnumber)) (by simp)
  · intro hrange
    rw [Option.eq_none_iff_forall_ne_some]
    intro o ho
    have := o.number_range
    rw [Opcode.ofNumber?_eq_some_iff.1 ho] at this
    omega

/-! ### A word and its fields -/

/-- Bits 40:32, which R73 reserves. -/
def wordReserved (w : RecordWord) : BitVec 9 := w.extractLsb' 32 9

/-- The word with given fields, from the high bits down (R73). -/
def wordOfFields (o : BitVec 8) (rd rs1 rs2 : Reg) (res : BitVec 9) (imm : Word) :
    BitVec (8 + 5 + 5 + 5 + 9 + 32) :=
  o ++ rd ++ rs1 ++ rs2 ++ res ++ imm

theorem InstrRecord.word_eq (r : InstrRecord) : r.word = wordOfFields r.op.number r.rd r.rs1 r.rs2 0 r.imm := rfl

theorem wordOfFields_fields (w : RecordWord) :
    wordOfFields (wordOp w) (wordRd w) (wordRs1 w) (wordRs2 w) (wordReserved w) (wordImm w) = w := by
  unfold wordOfFields wordOp wordRd wordRs1 wordRs2 wordReserved wordImm
  simp only [BitVec.extractLsb'_append_extractLsb'_eq_extractLsb']
  exact BitVec.extractLsb'_eq_self

theorem bitVec_append_inj {m n : Nat} {a b : BitVec m} {c d : BitVec n} : a ++ c = b ++ d ↔ a = b ∧ c = d := by
  refine ⟨fun h => ⟨?_, ?_⟩, fun ⟨ha, hc⟩ => by rw [ha, hc]⟩
  · simpa only [BitVec.extractLsb'_append_eq_left] using congrArg (BitVec.extractLsb' n m) h
  · simpa only [BitVec.extractLsb'_append_eq_right] using congrArg (BitVec.extractLsb' 0 n) h

theorem wordOfFields_inj {o o' : BitVec 8} {rd rd' rs1 rs1' rs2 rs2' : Reg} {res res' : BitVec 9} {imm imm' : Word} :
    wordOfFields o rd rs1 rs2 res imm = wordOfFields o' rd' rs1' rs2' res' imm' ↔
      o = o' ∧ rd = rd' ∧ rs1 = rs1' ∧ rs2 = rs2' ∧ res = res' ∧ imm = imm' := by
  simp only [wordOfFields, bitVec_append_inj, and_assoc]

theorem wordOfFields_and (o o' : BitVec 8) (rd rd' rs1 rs1' rs2 rs2' : Reg) (res res' : BitVec 9) (imm imm' : Word) :
    wordOfFields o rd rs1 rs2 res imm &&& wordOfFields o' rd' rs1' rs2' res' imm' =
      wordOfFields (o &&& o') (rd &&& rd') (rs1 &&& rs1') (rs2 &&& rs2') (res &&& res') (imm &&& imm') := by
  simp only [wordOfFields, BitVec.and_append]

/-! ### The `match` and `mask` columns, field by field -/

/-- What `rd` is where the format fixes it: 31 for `jal`, 0 elsewhere (R74). -/
def Opcode.fixedRd (o : Opcode) : Reg := if o = .jal then 31 else 0

/-- The mask of a register field: every bit is fixed if the field is. -/
def regMask (fixed : Bool) : Reg := if fixed then BitVec.allOnes 5 else 0

/-- The formats without an immediate (R74). -/
def Opcode.withoutImm : List Opcode := [.add, .sub, .mul, .and, .or, .xor, .slt, .jr, .nop, .syscall, .halt]

/-- The formats whose immediate is a shift amount (R75). -/
def Opcode.shifts : List Opcode := [.sll, .srl]

/-- The mask of the immediate: all of it, `imm[31:5]` or nothing. -/
def Opcode.immMask (o : Opcode) : Word :=
  if o ∈ Opcode.withoutImm then BitVec.allOnes 32 else if o ∈ Opcode.shifts then BitVec.allOnes 27 ++ 0#5 else 0

theorem Opcode.matchBits_eq (o : Opcode) : o.matchBits = wordOfFields o.number o.fixedRd 0 0 0 0 := by
  cases o <;> rfl

theorem Opcode.maskBits_eq (o : Opcode) :
    o.maskBits = wordOfFields (BitVec.allOnes 8) (regMask (!writesRd o || o == .jal)) (regMask (!readsRs1 o))
      (regMask (!readsRs2 o)) (BitVec.allOnes 9) o.immMask := by
  cases o <;> rfl

/-! ### The records that have a word -/

/-- The static fields the decoder reads from a word of opcode `o`. -/
def wordRecord (o : Opcode) (w : RecordWord) : InstrRecord := ⟨o, wordRd w, wordRs1 w, wordRs2 w, wordImm w⟩

@[simp] theorem wordRecord_word (r : InstrRecord) : wordRecord r.op r.word = r := by simp [wordRecord]

/-- A word is the word of its record if its reserved bits are 0. -/
theorem word_wordRecord {o : Opcode} {w : RecordWord} (hop : o.number = wordOp w) (hres : wordReserved w = 0) :
    (wordRecord o w).word = w := by
  calc (wordRecord o w).word
      = wordOfFields o.number (wordRd w) (wordRs1 w) (wordRs2 w) 0 (wordImm w) := (wordRecord o w).word_eq
    _ = wordOfFields (wordOp w) (wordRd w) (wordRs1 w) (wordRs2 w) (wordReserved w) (wordImm w) := by rw [hop, hres]
    _ = w := wordOfFields_fields w

/-- The fields of a record are ones its format admits (R74, R75, R80). -/
structure InstrRecord.Fits (r : InstrRecord) : Prop where
  rd : writesRd r.op = false → r.rd = 0
  rs1 : readsRs1 r.op = false → r.rs1 = 0
  rs2 : readsRs2 r.op = false → r.rs2 = 0
  imm : r.op ∈ Opcode.withoutImm → r.imm = 0
  shift : r.op ∈ Opcode.shifts → r.imm.toNat < 32
  link : r.op = .jal → r.rd = 31

theorem wordRecord_fits_iff {o : Opcode} {w : RecordWord} :
    (wordRecord o w).Fits ↔
      (writesRd o = false → wordRd w = 0) ∧ (readsRs1 o = false → wordRs1 w = 0) ∧
        (readsRs2 o = false → wordRs2 w = 0) ∧ (o ∈ Opcode.withoutImm → wordImm w = 0) ∧
        (o ∈ Opcode.shifts → (wordImm w).toNat < 32) ∧ (o = .jal → wordRd w = 31) :=
  ⟨fun ⟨hrd, hrs1, hrs2, himm, hshift, hlink⟩ => ⟨hrd, hrs1, hrs2, himm, hshift, hlink⟩,
    fun ⟨hrd, hrs1, hrs2, himm, hshift, hlink⟩ => ⟨hrd, hrs1, hrs2, himm, hshift, hlink⟩⟩

theorem and_regMask_true (x : Reg) : x &&& regMask true = x := BitVec.and_allOnes

theorem and_regMask_eq_zero_iff {x : Reg} {fixed : Bool} : x &&& regMask fixed = 0 ↔ (fixed = true → x = 0) := by
  cases fixed with
  | false => simp [regMask]
  | true => simp [and_regMask_true]

/-- The bits of `mask` in the `rd` field are those of `match` iff `rd` is one the format admits. -/
theorem Opcode.and_rdMask_iff {o : Opcode} {x : Reg} :
    x &&& regMask (!writesRd o || o == .jal) = o.fixedRd ↔ (writesRd o = false → x = 0) ∧ (o = .jal → x = 31) := by
  by_cases hjal : o = .jal
  · subst hjal
    simp [and_regMask_true, Opcode.fixedRd, writesRd]
  · rw [Opcode.fixedRd, if_neg hjal, and_regMask_eq_zero_iff]
    simp [hjal]

/-- `imm[31:5] = 0` says that the immediate is below 32. -/
theorem and_highMask_eq_zero_iff {x : Word} : x &&& (BitVec.allOnes 27 ++ 0#5) = 0 ↔ x.toNat < 32 := by
  have hsplit : x = x.extractLsb' 5 27 ++ x.extractLsb' 0 5 :=
    ((BitVec.extractLsb'_append_extractLsb'_eq_extractLsb' (start₁ := 0) (start₂ := 5) (len₁ := 5) (len₂ := 27)
      rfl).trans BitVec.extractLsb'_eq_self).symm
  calc x &&& (BitVec.allOnes 27 ++ 0#5) = 0
      ↔ (x.extractLsb' 5 27 ++ 0#5 : BitVec (27 + 5)) = 0#27 ++ 0#5 := by
        conv_lhs => rw [hsplit]
        rw [BitVec.and_append (w := 27) (v := 5), BitVec.and_allOnes, BitVec.and_zero]
        rfl
    _ ↔ x.extractLsb' 5 27 = 0#27 := BitVec.append_left_inj _
    _ ↔ x.toNat < 32 := by
        rw [← BitVec.toNat_inj, BitVec.extractLsb'_toNat, Nat.shiftRight_eq_div_pow]
        have := x.isLt
        simp only [BitVec.toNat_ofNat]
        omega

theorem Opcode.and_immMask_iff {o : Opcode} {x : Word} :
    x &&& o.immMask = 0 ↔ (o ∈ Opcode.withoutImm → x = 0) ∧ (o ∈ Opcode.shifts → x.toNat < 32) := by
  rw [Opcode.immMask]
  split
  · rename_i hnone
    have hzero : x = 0 → x.toNat < 32 := by
      rintro rfl
      decide
    rw [BitVec.and_allOnes]
    tauto
  · split
    · rw [and_highMask_eq_zero_iff]
      tauto
    · rw [show (0 : Word) = 0#32 from rfl, BitVec.and_zero]
      tauto

/-- The decoder's test on a word is a test on its fields (R79). -/
theorem Opcode.matches_iff {o : Opcode} {w : RecordWord} (hop : o.number = wordOp w) :
    w &&& o.maskBits = o.matchBits ↔ wordReserved w = 0 ∧ (wordRecord o w).Fits := by
  conv_lhs => rw [← wordOfFields_fields w, Opcode.maskBits_eq, Opcode.matchBits_eq]
  rw [wordOfFields_and, wordOfFields_inj, Opcode.and_rdMask_iff, and_regMask_eq_zero_iff, and_regMask_eq_zero_iff,
    Opcode.and_immMask_iff]
  simp only [BitVec.and_allOnes, Bool.not_eq_true', hop, true_and, wordRecord_fits_iff]
  tauto

/-! ### Instructions and records -/

/-- The instruction of a record. -/
def Instr.ofRecord (r : InstrRecord) : Instr := Instr.ofFields r.op r.rd r.rs1 r.rs2 r.imm

/-- A record with the fields its format does not use set to what the format fixes (R74). -/
def InstrRecord.canonical (r : InstrRecord) : InstrRecord where
  op := r.op
  rd := if writesRd r.op then if r.op = .jal then 31 else r.rd else 0
  rs1 := if readsRs1 r.op then r.rs1 else 0
  rs2 := if readsRs2 r.op then r.rs2 else 0
  imm := if r.op ∈ Opcode.withoutImm then 0 else r.imm

theorem Instr.ofRecord_record (i : Instr) : Instr.ofRecord i.record = i := by cases i <;> rfl

theorem Instr.record_ofRecord (r : InstrRecord) : (Instr.ofRecord r).record = r.canonical := by
  obtain ⟨op, rd, rs1, rs2, imm⟩ := r
  cases op <;> rfl

theorem Instr.wf_ofRecord_iff {r : InstrRecord} :
    (Instr.ofRecord r).wf = true ↔ (r.op ∈ Opcode.shifts → r.imm.toNat < 32) := by
  obtain ⟨op, rd, rs1, rs2, imm⟩ := r
  cases op <;> simp [Instr.ofRecord, Instr.ofFields, Instr.wf, Opcode.shifts]

theorem InstrRecord.Fits.canonical_eq {r : InstrRecord} (h : r.Fits) : r.canonical = r := by
  have hlink : (if r.op = .jal then 31 else r.rd) = r.rd := ite_eq_right_iff.2 fun hjal => (h.link hjal).symm
  have hrd : (if writesRd r.op then r.rd else 0) = r.rd :=
    ite_eq_left_iff.2 fun hn => (h.rd (Bool.eq_false_iff.2 hn)).symm
  have hrs1 : (if readsRs1 r.op then r.rs1 else 0) = r.rs1 :=
    ite_eq_left_iff.2 fun hn => (h.rs1 (Bool.eq_false_iff.2 hn)).symm
  have hrs2 : (if readsRs2 r.op then r.rs2 else 0) = r.rs2 :=
    ite_eq_left_iff.2 fun hn => (h.rs2 (Bool.eq_false_iff.2 hn)).symm
  have himm : (if r.op ∈ Opcode.withoutImm then 0 else r.imm) = r.imm :=
    ite_eq_right_iff.2 fun hnone => (h.imm hnone).symm
  rw [InstrRecord.canonical, hlink, hrd, hrs1, hrs2, himm]

theorem InstrRecord.fits_canonical {r : InstrRecord} (hshift : r.op ∈ Opcode.shifts → r.imm.toNat < 32) :
    r.canonical.Fits where
  rd h := if_neg (Bool.eq_false_iff.1 h)
  rs1 h := if_neg (Bool.eq_false_iff.1 h)
  rs2 h := if_neg (Bool.eq_false_iff.1 h)
  imm h := if_pos h
  shift h := by
    simp only [InstrRecord.canonical]
    split
    · decide
    · exact hshift h
  link h := (if_pos (h ▸ rfl)).trans (if_pos h)

/-- The record of a well-formed instruction has a word: it is canonical, and its shift amount is in range. -/
theorem Instr.fits_record {i : Instr} (hwf : i.wf = true) : i.record.Fits := by
  rw [← i.ofRecord_record, Instr.wf_ofRecord_iff] at hwf
  have hfits := InstrRecord.fits_canonical hwf
  rwa [← Instr.record_ofRecord, Instr.ofRecord_record] at hfits

/-! ### Decoding -/

theorem decode_of_fits {o : Opcode} {w : RecordWord} (hop : o.number = wordOp w) (hres : wordReserved w = 0)
    (h : (wordRecord o w).Fits) : decode w = .ok (Instr.ofRecord (wordRecord o w)) := by
  rw [decode, Opcode.ofNumber?_eq_some_iff.2 hop]
  exact if_pos ((Opcode.matches_iff hop).2 ⟨hres, h⟩)

theorem decode_of_not_fits {o : Opcode} {w : RecordWord} (hop : o.number = wordOp w)
    (h : ¬ (wordReserved w = 0 ∧ (wordRecord o w).Fits)) : decode w = .error .nonZeroUnusedField := by
  rw [decode, Opcode.ofNumber?_eq_some_iff.2 hop]
  exact if_neg (mt (Opcode.matches_iff hop).1 h)

theorem decode_of_ofNumber?_none {w : RecordWord} (h : Opcode.ofNumber? (wordOp w) = none) :
    decode w = .error .unknownOpcode := by
  rw [decode, h]

/-- What a word that decodes is (R79): a record that fits, with reserved bits 0. -/
theorem decode_ok {w : RecordWord} {i : Instr} (h : decode w = .ok i) :
    ∃ o, o.number = wordOp w ∧ wordReserved w = 0 ∧ (wordRecord o w).Fits ∧ i = Instr.ofRecord (wordRecord o w) := by
  cases hop : Opcode.ofNumber? (wordOp w) with
  | none =>
    rw [decode_of_ofNumber?_none hop] at h
    cases h
  | some o =>
    have hnumber := Opcode.ofNumber?_eq_some_iff.1 hop
    by_cases hfits : wordReserved w = 0 ∧ (wordRecord o w).Fits
    · obtain ⟨hres, hfits⟩ := hfits
      rw [decode_of_fits hnumber hres hfits] at h
      exact ⟨o, hnumber, hres, hfits, (Except.ok.inj h).symm⟩
    · rw [decode_of_not_fits hnumber hfits] at h
      cases h

/-- Settles O1: the record of a well-formed instruction fits its format, and its word has its fields. -/
theorem decodeOfEncode : Obligations.DecodeOfEncode := by
  intro i hwf
  have hrecord : wordRecord i.record.op (encode i) = i.record := wordRecord_word i.record
  have hfits : (wordRecord i.record.op (encode i)).Fits := by
    rw [hrecord]
    exact Instr.fits_record hwf
  calc decode (encode i)
      = .ok (Instr.ofRecord (wordRecord i.record.op (encode i))) :=
        decode_of_fits (wordOp_word i.record).symm (reserved_word i.record) hfits
    _ = .ok i := by rw [hrecord, Instr.ofRecord_record]

/-- Settles O2: the record of a legal word is the record of its instruction, and has no other word. -/
theorem encodeOfDecode : Obligations.EncodeOfDecode := by
  intro w i h
  obtain ⟨o, hop, hres, hfits, rfl⟩ := decode_ok h
  refine ⟨Instr.wf_ofRecord_iff.2 hfits.shift, ?_⟩
  calc encode (Instr.ofRecord (wordRecord o w))
      = (wordRecord o w).canonical.word := congrArg InstrRecord.word (Instr.record_ofRecord _)
    _ = (wordRecord o w).word := by rw [hfits.canonical_eq]
    _ = w := word_wordRecord hop hres

/-- Settles O3: the legal words are the words of well-formed instructions, and the two others have no opcode and a `jal`
that does not link to register 31. -/
theorem specWordsDecode : Obligations.SpecWordsDecode :=
  ⟨decodeOfEncode (.li 8 1) rfl, decodeOfEncode (.addi 9 8 1) rfl, decodeOfEncode (.add 16 2 0) rfl,
    decodeOfEncode (.sll 12 8 4) rfl, decodeOfEncode (.sw 29 8 0) rfl, decodeOfEncode (.beq 8 0 0x00400010) rfl,
    decodeOfEncode (.jal 0x00400010) rfl, decodeOfEncode (.jr 31) rfl, decodeOfEncode .syscall rfl,
    decode_of_ofNumber?_none rfl,
    decode_of_not_fits (o := .jal) rfl (fun ⟨_, hfits⟩ => absurd (hfits.link rfl) (by decide))⟩

/-! ### Illegal words -/

theorem decode_eq_unknownOpcode_iff {w : RecordWord} :
    decode w = .error .unknownOpcode ↔ Opcode.ofNumber? (wordOp w) = none := by
  refine ⟨fun h => ?_, decode_of_ofNumber?_none⟩
  by_contra hsome
  obtain ⟨o, ho⟩ := Option.ne_none_iff_exists'.1 hsome
  rw [decode, ho] at h
  dsimp only at h
  split at h <;> cases h

theorem decode_eq_nonZeroUnusedField_iff {o : Opcode} {w : RecordWord} (hop : o.number = wordOp w) :
    decode w = .error .nonZeroUnusedField ↔ ¬ (wordReserved w = 0 ∧ (wordRecord o w).Fits) := by
  refine ⟨fun h ⟨hres, hfits⟩ => ?_, decode_of_not_fits hop⟩
  rw [decode_of_fits hop hres hfits] at h
  cases h

theorem textLegal_of_mem_illegal {base : Word} {text : List RecordWord} {w : RecordWord} {e : DecodeError}
    (hw : w ∈ text) (h : decode w = .error e) : Machine.textLegal base text = false := by
  have hnone : decode? w = none := by rw [decode?, h]
  refine Bool.and_eq_false_imp.2 fun hall => ?_
  exact absurd (List.all_eq_true.1 hall w hw) (by simp [hnone])

/-- The loader refuses a program whose text is not legal (R80, R200). -/
theorem Machine.State.load_of_textLegal_false {c : Config} {p : Program} (hc : c.valid = true)
    (h : textLegal c.textBase p.text = false) : State.load c p = .refused .programInvalid := by
  have hp : p.valid c = false := by simp [Program.valid, h]
  rw [State.load, if_neg (by simp [hc]), if_pos hp]

/-- The ways a word of a known opcode breaks its format (R80). -/
theorem not_fits_iff {o : Opcode} {w : RecordWord} :
    ¬ (wordReserved w = 0 ∧ (wordRecord o w).Fits) ↔
      wordReserved w ≠ 0 ∨ (writesRd o = false ∧ wordRd w ≠ 0) ∨ (readsRs1 o = false ∧ wordRs1 w ≠ 0) ∨
        (readsRs2 o = false ∧ wordRs2 w ≠ 0) ∨ (o ∈ Opcode.withoutImm ∧ wordImm w ≠ 0) ∨
        (o ∈ Opcode.shifts ∧ 32 ≤ (wordImm w).toNat) ∨ (o = .jal ∧ wordRd w ≠ 31) := by
  simp only [wordRecord_fits_iff, not_and_or, Classical.not_imp, not_lt, ne_eq]

/-- Settles O4: the loader refuses a text with an illegal word, an unknown opcode is a number outside R76, and every other
illegal word breaks its format in a field. -/
theorem illegalWordsRejected : Obligations.IllegalWordsRejected := by
  refine ⟨fun c p w e hc hw h => Machine.State.load_of_textLegal_false hc (textLegal_of_mem_illegal hw h),
    fun w => ⟨decode_eq_unknownOpcode_iff.trans Opcode.ofNumber?_eq_none_iff, fun o hop => ?_⟩⟩
  exact (decode_eq_nonZeroUnusedField_iff (Opcode.ofNumber?_eq_some_iff.1 hop)).trans not_fits_iff

end Sys2Proof
end

section
/-!
SUPPORT. One step of either driver (R85 to R87, R98, R103), what an ALU unit computes against what the sequential semantics
applies (R98, R118), the columns of R76 and R77, and the ratios of the results record (R100, R210).
-/

namespace Sys2Proof.Machine

/-! ### The sequential step -/

theorem sequentialStep_of_instrAt {s : State} {i : Instr} (h : s.instrAt s.archPc = some i) :
    sequentialStep s = exec i s := by
  rw [sequentialStep, h]

theorem sequentialStep_of_no_instr {s : State} (h : s.instrAt s.archPc = none) :
    sequentialStep s = .next (s.raiseSequential .fetchFault s.archPc) := by
  rw [sequentialStep, h]

/-- The address of record `k` of a text that fits the address space names that record (R29). -/
theorem State.instrAt_record {s : State} {k : Nat} {i : Instr} (hs : s.startRefusal = none) (hk : k < s.imem.length)
    (hi : decode (s.imem.getD k 0) = .ok i) : s.instrAt (s.cfg.textBase + BitVec.ofNat 32 (4 * k)) = some i := by
  obtain ⟨hvalid, hlegal⟩ := startRefusal_none hs
  have hfits : s.cfg.textBase.toNat + 4 * s.imem.length ≤ 2 ^ 32 := by
    simp only [textLegal, Bool.and_eq_true, decide_eq_true_eq] at hlegal
    exact hlegal.2
  have haligned : s.cfg.textBase.toNat % 4 = 0 := by
    rw [Config.valid_iff] at hvalid
    tauto
  have haddr : (s.cfg.textBase + BitVec.ofNat 32 (4 * k)).toNat = s.cfg.textBase.toNat + 4 * k := by
    rw [BitVec.toNat_add, BitVec.toNat_ofNat, Nat.mod_eq_of_lt (a := 4 * k) (by omega), Nat.mod_eq_of_lt (by omega)]
  rw [State.instrAt_iff, haddr, show (s.cfg.textBase.toNat + 4 * k - s.cfg.textBase.toNat) / 4 = k by omega]
  exact ⟨by omega, by omega, by omega, hi⟩

/-- Settles O5: the record at `arch_pc` is the one decoded, and the step is its meaning. -/
theorem sequentialStepRunsInstruction : Obligations.SequentialStepRunsInstruction := by
  intro s k i hs ho hd hk hpc hi
  have hat : s.instrAt s.archPc = some i := hpc ▸ s.instrAt_record hs hk hi
  rw [step_of_sequential hs ho hd, sequentialStep_of_instrAt hat]

/-- Settles O6: such a pc names no record, so the step raises. -/
theorem sequentialFetchFault : Obligations.SequentialFetchFault := by
  intro s hs ho hd hpc
  have hat : s.instrAt s.archPc = none := by
    refine Option.eq_none_iff_forall_ne_some.2 fun i hi => ?_
    obtain ⟨haligned, hlo, hhi, -⟩ := (s.instrAt_iff s.archPc i).1 hi
    omega
  exact ⟨_, (step_of_sequential hs ho hd).trans (sequentialStep_of_no_instr hat), faultStep_raise ..⟩

/-! ### The tick -/

@[simp] theorem State.tick_cycle (s : State) : s.tick.cycle = s.cycle + 1 := by simp [State.tick]

theorem State.driverTick_limit {s : State} (ho : s.tick.outcome = .running) (hc : s.cycle + 1 = s.cfg.maxCycles) :
    s.driverTick = { s.tick with outcome := .limit } := by
  have hend : s.tick.outcome = .running ∧ s.tick.cycle = s.tick.cfg.maxCycles :=
    ⟨ho, by rw [s.tick_cycle, s.tick_cfg, hc]⟩
  rw [State.driverTick, State.limitCheck, if_pos hend]

theorem State.driverTick_eq_tick {s : State} (h : s.tick.outcome ≠ .running ∨ s.cycle + 1 ≠ s.cfg.maxCycles) :
    s.driverTick = s.tick := by
  have hgo : ¬ (s.tick.outcome = .running ∧ s.tick.cycle = s.tick.cfg.maxCycles) := by
    rw [s.tick_cycle, s.tick_cfg]
    exact fun hend => h.elim (· hend.1) (· hend.2)
  rw [State.driverTick, State.limitCheck, if_neg hgo]

/-- Settles O7: the tick by its definition, the step by the two ends of a turn of the driver. -/
theorem pipelineStepIsOneTick : Obligations.PipelineStepIsOneTick := by
  refine ⟨fun s => by simp [State.tick], fun s hs ho hd => ?_⟩
  refine ⟨s.driverTick, step_of_pipeline hs ho hd, ?_, fun h hc => State.driverTick_limit h hc,
    fun h => State.driverTick_eq_tick h⟩
  rw [State.driverTick, State.limitCheck_cycle, State.tick_cycle]

/-! ### The columns of R76 and R77, and the units -/

/-- The execution class, the operands and the kind of an opcode (R76, R77, R104). -/
theorem opcode_columns (op : Opcode) :
    (opClass op = some .lsu ↔ op ∈ [Opcode.lw, .sw]) ∧
    (opClass op = none ↔ op ∈ [Opcode.nop, .syscall, .halt]) ∧
    (opClass op = some .alu ↔ op ∉ [Opcode.lw, .sw, .nop, .syscall, .halt]) ∧
    opClass op ≠ some .fpu ∧
    (readsRs1 op = false ↔ op ∈ [Opcode.li, .la, .j, .jal, .nop, .syscall, .halt]) ∧
    (readsRs2 op = true ↔ op ∈ [Opcode.add, .sub, .mul, .and, .or, .xor, .slt, .sw, .beq, .bne, .bgt, .bge, .ble, .blt]) ∧
    (writesRd op = true ↔
      op ∈ [Opcode.add, .addi, .sub, .mul, .and, .or, .xor, .sll, .srl, .slt, .li, .la, .lw, .jal]) ∧
    (isConditional op = true ↔ op ∈ [Opcode.beq, .bne, .bgt, .bge, .ble, .blt]) ∧
    (isControl op = true ↔ op ∈ [Opcode.beq, .bne, .bgt, .bge, .ble, .blt, .j, .jal, .jr]) := by
  cases op <;> decide

/-- An instruction of class ALU means what its unit computes, from the registers its record names (R98, R118). -/
theorem exec_of_alu {i : Instr} (s : State) (h : opClass i.record.op = some .alu) :
    exec i s = s.finishSequential i.record.rd
      (unitResult s.cfg.overflowTraps i.record.op (s.reg i.record.rs1) (s.reg i.record.rs2) i.record.imm s.archPc) := by
  cases i with
  | lw | sw | nop | syscall | halt => cases h
  | _ => rfl

/-- Settles O22. -/
theorem unitAgreesWithExec : Obligations.UnitAgreesWithExec :=
  ⟨opcode_columns, fun s _ h => exec_of_alu s h⟩

/-! ### The results record -/

theorem branchAccuracy_mul {n m : Nat} (hn : 0 < n) (hm : m ≤ n) :
    branchAccuracy n m * n = (n - m : Nat) := by
  have hne : (n : Rat) ≠ 0 := Nat.cast_ne_zero.2 hn.ne'
  rw [branchAccuracy, if_neg hn.ne', div_mul_cancel₀ _ hne, Nat.cast_sub hm]

/-- Settles O59. -/
theorem resultsRatios : Obligations.ResultsRatios := by
  intro s hcycle
  have hne : (s.cycle : Rat) ≠ 0 := Nat.cast_ne_zero.2 hcycle.ne'
  exact ⟨fun h => if_pos h, branchAccuracy_mul, div_mul_cancel₀ _ hne⟩

end Sys2Proof.Machine
end

section
/-!
SUPPORT. The D stage (R90 to R93, R103): what an allocation writes, and which records decode takes.
-/

namespace Sys2Proof.Machine

/-! ### The new ROB entry -/

theorem destination_eq (r : InstrRecord) :
    destination r = if writesRd r.op = true ∧ r.rd ≠ 0 then some r.rd else none := by
  simp [destination]

/-- A flag of R91 that a list of opcodes gives. -/
theorem completesAtDecode_eq (op : Opcode) : completesAtDecode op = decide (op ∈ [Opcode.nop, .syscall, .halt]) := by
  cases op <;> rfl

theorem isControl_eq (op : Opcode) :
    isControl op = decide (op ∈ [Opcode.beq, .bne, .bgt, .bge, .ble, .blt, .j, .jal, .jr]) := by
  cases op <;> rfl

theorem isMemory_eq (op : Opcode) : isMemory op = decide (op ∈ [Opcode.lw, .sw]) := by
  cases op <;> rfl

/-- The entry of an instruction's record, every field (R91). -/
theorem newRobEntry_of_body {f : FetchRec} {r : InstrRecord} (h : f.body = some r) (seq : Nat) :
    newRobEntry f seq =
      { valid := true, seq := seq, pc := f.pc, op := some r.op
        dest := if writesRd r.op = true ∧ r.rd ≠ 0 then some r.rd else none
        value := 0, completed := decide (r.op ∈ [Opcode.nop, .syscall, .halt]), exception := none, excAddr := 0
        isCtl := decide (r.op ∈ [Opcode.beq, .bne, .bgt, .bge, .ble, .blt, .j, .jal, .jr])
        predTaken := f.predTaken, actualTaken := false, fetchedNextPc := f.fetchedNextPc, actualNextPc := f.pc + 4
        ghrSnap := f.ghrSnap, isStore := decide (r.op = .sw), stAddr := 0, stValue := 0
        hasLsq := decide (r.op ∈ [Opcode.lw, .sw]) } := by
  simp only [newRobEntry, h, bodyIs, bodyDest, destination_eq, completesAtDecode_eq, isControl_eq, isMemory_eq,
    Option.isNone_some, Bool.or_false, Bool.false_eq_true, if_false, Option.map_some, beq_eq_decide, nextSequential_eq]

/-- The entry of a fetch fault record, every field (R91, R103). -/
theorem newRobEntry_of_fault {f : FetchRec} (h : f.body = none) (seq : Nat) :
    newRobEntry f seq =
      { valid := true, seq := seq, pc := f.pc, op := none, dest := none, value := 0, completed := true
        exception := some .fetchFault, excAddr := f.pc, isCtl := false, predTaken := f.predTaken
        actualTaken := false, fetchedNextPc := f.fetchedNextPc, actualNextPc := f.pc + 4, ghrSnap := f.ghrSnap
        isStore := false, stAddr := 0, stValue := 0, hasLsq := false } := by
  simp only [newRobEntry, h, bodyIs, bodyDest, Option.isNone_none, Bool.or_true, if_true, Option.map_none,
    nextSequential_eq]

/-! ### What an allocation writes -/

theorem State.robAt_allocate_tail {s : State} (h : s.robTail < s.rob.length) (f : FetchRec) :
    (s.allocate f).robAt s.robTail = newRobEntry f s.seqNext := by
  rw [State.robAt_allocate, if_pos ⟨rfl, h⟩]

theorem State.robAt_allocate_of_ne (s : State) (f : FetchRec) {i : Nat} (h : i ≠ s.robTail) :
    (s.allocate f).robAt i = s.robAt i := by
  rw [State.robAt_allocate, if_neg fun c => h c.1]

/-- The LSQ after an allocation: one entry more for a load or a store (R91, R126). -/
theorem State.allocate_lsq (s : State) (f : FetchRec) :
    (s.allocate f).lsq =
      if bodyIs isMemory f.body then
        s.lsq ++ [newLsqEntry (if bodyIs (· == .lw) f.body then .load else .store) s.seqNext s.robTail]
      else s.lsq := by
  unfold State.allocate State.allocateLsq State.renameDest
  dsimp only
  split <;> split <;> simp

/-- A snapshot reads the rename map and the sequence numbers of the entries it names (R92). -/
theorem State.snap_congr {s t : State} (hrf : t.rf = s.rf) {i : Reg}
    (hrob : (s.regEntry i).ready = false → t.robAt (s.regEntry i).tag = s.robAt (s.regEntry i).tag) :
    t.snap i = s.snap i := by
  unfold State.snap
  rw [State.regEntry_congr hrf]
  split
  · rfl
  · split
    · rfl
    · rename_i hready
      rw [hrob (by simpa using hready)]

theorem State.snap1_congr {s t : State} (h : ∀ i, t.snap i = s.snap i) (b : Option InstrRecord) :
    t.snap1 b = s.snap1 b := by
  cases b <;> simp [State.snap1, h]

theorem State.snap2_congr {s t : State} (h : ∀ i, t.snap i = s.snap i) (b : Option InstrRecord) :
    t.snap2 b = s.snap2 b := by
  cases b <;> simp [State.snap2, h]

/-- No register that is not ready names the ROB tail, the entry the next allocation writes. -/
def State.TailUnnamed (s : State) : Prop := ∀ i, (s.regEntry i).ready = false → (s.regEntry i).tag ≠ s.robTail

/-- The state in which an allocation takes its snapshots: the new entry is written, nothing is renamed yet (R91). -/
def State.withNewEntry (s : State) (f : FetchRec) : State :=
  { s with
    robTail := (s.robTail + 1) % s.cfg.robCap
    robCount := s.robCount + 1
    seqNext := s.seqNext + 1
    rob := updateAt (fun _ => newRobEntry f s.seqNext) s.rob s.robTail }

theorem State.snap_withNewEntry {s : State} (h : s.TailUnnamed) (f : FetchRec) (i : Reg) :
    (s.withNewEntry f).snap i = s.snap i :=
  State.snap_congr (by rfl) fun hready => by
    rw [State.robAt, State.withNewEntry, entryAt_updateAt, if_neg fun c => h i hready c.1]
    rfl

/-- The latch after an allocation: the record, with the sources as the map stood before the rename (R91, R92). -/
theorem State.allocate_dl_eq {s : State} (h : s.TailUnnamed) (f : FetchRec) :
    (s.allocate f).dl = s.dl ++ [⟨f, s.seqNext, s.robTail, s.snap1 f.body, s.snap2 f.body⟩] := by
  rw [← State.snap1_congr (s.snap_withNewEntry h f), ← State.snap2_congr (s.snap_withNewEntry h f)]
  simp [State.allocate, State.withNewEntry]

/-- A fetch fault record has no sources (R103). -/
theorem State.allocate_dl_of_fault (s : State) {f : FetchRec} (h : f.body = none) :
    (s.allocate f).dl = s.dl ++ [⟨f, s.seqNext, s.robTail, .const0, .const0⟩] := by
  simp [State.allocate, State.snap1, State.snap2, h]

/-! ### The obligation on allocation -/

/-- What a fetch fault record leaves alone (R103). -/
theorem State.allocate_fault {s : State} {f : FetchRec} (h : f.body = none) :
    (∀ i, i ≠ s.robTail → (s.allocate f).robAt i = s.robAt i) ∧ (∀ i, (s.allocate f).regEntry i = s.regEntry i) ∧
      (s.allocate f).lsq = s.lsq := by
  refine ⟨fun i hi => s.robAt_allocate_of_ne f hi, fun i => ?_, ?_⟩
  · rw [State.regEntry_allocate, h, if_neg fun c => nomatch c.1]
  · rw [State.allocate_lsq, h]
    rfl

theorem State.allocate_lsq_of_body {s : State} {f : FetchRec} {r : InstrRecord} (h : f.body = some r) :
    (s.allocate f).lsq =
      if r.op = .lw ∨ r.op = .sw then
        s.lsq ++ [newLsqEntry (if r.op = .lw then .load else .store) s.seqNext s.robTail]
      else s.lsq := by
  rw [State.allocate_lsq, h]
  simp [bodyIs, isMemory_eq]

/-- A rename moves the destination alone (R93). -/
theorem State.regEntry_allocate_of_body {s : State} {f : FetchRec} {r : InstrRecord} (h : f.body = some r) (i : Reg) :
    (s.allocate f).regEntry i =
      if writesRd r.op = true ∧ r.rd ≠ 0 ∧ i = r.rd then ⟨(s.regEntry i).value, false, s.robTail⟩ else s.regEntry i := by
  have hdest : (bodyDest f.body = some i ∧ i ≠ 0) ↔ (writesRd r.op = true ∧ r.rd ≠ 0 ∧ i = r.rd) := by
    rw [h, bodyDest, destination_eq]
    constructor
    · rintro ⟨hd, -⟩
      split at hd
      · rename_i hw
        exact ⟨hw.1, hw.2, (Option.some.inj hd).symm⟩
      · cases hd
    · rintro ⟨hw, hrd, rfl⟩
      exact ⟨if_pos ⟨hw, hrd⟩, hrd⟩
  rw [State.regEntry_allocate, if_congr hdest rfl rfl]

/-- Settles O51: the entry at the tail, the LSQ, and the latch and rename map of an instruction's record. -/
theorem allocationRenames : Obligations.AllocationRenames := by
  refine ⟨fun s f htail => ?_, fun s f r hbody => s.allocate_lsq_of_body hbody, fun s f r hbody htail htags => ?_⟩
  · have hentry := s.robAt_allocate_tail htail f
    refine ⟨fun r hbody => hentry.trans (newRobEntry_of_body hbody _),
      fun hbody => hentry.trans (newRobEntry_of_fault hbody _), ?_⟩
    rw [hentry]
    refine ⟨rfl, rfl, rfl, rfl, rfl, rfl, rfl, s.allocate_robTail f, s.allocate_robCount f, s.allocate_seqNext f,
      fun hbody => ?_, fun hbody => ?_⟩
    · obtain ⟨r, hr⟩ := Option.ne_none_iff_exists'.1 hbody
      rw [newRobEntry_of_body hr]
    · obtain ⟨hrob, hreg, hlsq⟩ := s.allocate_fault hbody
      rw [newRobEntry_of_fault hbody]
      exact ⟨rfl, rfl, rfl, rfl, hrob, hreg, hlsq, s.allocate_dl_of_fault hbody⟩
  · dsimp only
    rw [s.robAt_allocate_tail htail f, newRobEntry_of_body hbody]
    refine ⟨rfl, rfl, rfl, rfl, by cases r.op <;> rfl, fun i hi => s.robAt_allocate_of_ne f hi,
      s.regEntry_allocate_of_body hbody, _, s.allocate_dl_eq htags f, rfl, rfl, rfl, ?_, ?_⟩
    · rw [hbody]
      rfl
    · rw [hbody]
      rfl

end Sys2Proof.Machine
end

section
/-!
SUPPORT. Which records decode takes from the fetch buffer, and where it stops (R90).
-/

namespace Sys2Proof.Machine

/-! ### The room at decode -/

/-- The stations of class `k` that no valid entry and no latched record has taken: their number taken (R90). -/
def State.taken (s : State) (k : FuClass) : Nat := countValid (s.rs.get k) + s.latched k

/-- The room the decode loop carries is what the state has left (R90). -/
structure RoomLeft (r : Room) (s : State) : Prop where
  rob : r.rob = s.cfg.robCap - s.robCount
  lsq : r.lsq = s.cfg.lsqCap - s.lsq.length
  rs : ∀ k, r.rs.get k = s.cfg.rsCap.get k - s.taken k

theorem RoomLeft.start {s : State} (h : s.dl = []) : RoomLeft s.room s where
  rob := rfl
  lsq := rfl
  rs k := by cases k <;> simp [State.room, State.taken, State.latched, h, PerClass.get]

/-- A record in the latch is latched for the class it needs. -/
theorem State.latched_allocate (s : State) (f : FetchRec) (k : FuClass) :
    (s.allocate f).latched k = s.latched k + if bodyClass f.body = some k then 1 else 0 := by
  have hdl : ∃ d, (s.allocate f).dl = s.dl ++ [d] ∧ d.fetched = f := by simp [State.allocate]
  obtain ⟨d, hd, rfl⟩ := hdl
  simp [State.latched, hd, List.countP_append, List.countP_singleton]

theorem State.taken_allocate (s : State) (f : FetchRec) (k : FuClass) :
    (s.allocate f).taken k = s.taken k + if bodyClass f.body = some k then 1 else 0 := by
  rw [State.taken, State.latched_allocate, State.allocate_rs, ← Nat.add_assoc]
  rfl

theorem Room.get_rs_take (r : Room) (b : Option InstrRecord) (k : FuClass) :
    (r.take b).rs.get k = r.rs.get k - if bodyClass b = some k then 1 else 0 := by
  unfold Room.take
  cases bodyClass b with
  | none => rfl
  | some c => by_cases hk : k = c <;> simp [hk, eq_comm (a := c)]

theorem RoomLeft.take {r : Room} {s : State} (h : RoomLeft r s) (f : FetchRec) :
    RoomLeft (r.take f.body) (State.allocate { s with fb := s.fb.tail } f) where
  rob := by
    rw [State.allocate_robCount, State.allocate_cfg]
    show r.rob - 1 = s.cfg.robCap - (s.robCount + 1)
    rw [h.rob, Nat.sub_sub]
  lsq := by
    rw [State.allocate_lsq_length, State.allocate_cfg]
    show (if bodyIs isMemory f.body then r.lsq - 1 else r.lsq) = s.cfg.lsqCap - (s.lsq.length + _)
    rw [h.lsq]
    split <;> simp [Nat.sub_sub]
  rs k := by
    rw [State.taken_allocate, State.allocate_cfg, Room.get_rs_take, h.rs, Nat.sub_sub]
    rfl

/-- Is every station of the class the record needs taken? -/
def State.StationFull (s : State) (f : FetchRec) : Prop :=
  ∃ k, bodyClass f.body = some k ∧ s.cfg.rsCap.get k ≤ s.taken k

/-- Does the record need an LSQ entry where there is none? -/
def State.QueueFull (s : State) (f : FetchRec) : Prop :=
  bodyIs isMemory f.body = true ∧ s.cfg.lsqCap ≤ s.lsq.length

theorem bodyClass_eq_some_iff {b : Option InstrRecord} {k : FuClass} :
    bodyClass b = some k ↔ ∃ r, b = some r ∧ opClass r.op = some k := by
  cases b <;> simp [bodyClass]

theorem bodyIs_isMemory_iff {b : Option InstrRecord} :
    bodyIs isMemory b = true ↔ ∃ r, b = some r ∧ (r.op = .lw ∨ r.op = .sw) := by
  cases b <;> simp [bodyIs, isMemory_eq]

/-- The three ways decode finds no room (R90). -/
theorem not_decodeRoom_iff {s : State} {f : FetchRec} :
    ¬ DecodeRoom s f ↔ s.cfg.robCap ≤ s.robCount ∨ s.StationFull f ∨ s.QueueFull f := by
  have hroom : DecodeRoom s f ↔ s.robCount < s.cfg.robCap ∧ ¬ s.StationFull f ∧ ¬ s.QueueFull f := by
    constructor
    · intro h
      refine ⟨h.rob, ?_, ?_⟩
      · rintro ⟨k, hk, hfull⟩
        obtain ⟨r, hr, hop⟩ := bodyClass_eq_some_iff.1 hk
        exact absurd (h.station r k hr hop) (Nat.not_lt.2 hfull)
      · rintro ⟨hm, hfull⟩
        obtain ⟨r, hr, hop⟩ := bodyIs_isMemory_iff.1 hm
        exact absurd (h.queue r hr hop) (Nat.not_lt.2 hfull)
    · rintro ⟨hrob, hstation, hqueue⟩
      exact ⟨hrob, fun r k hr hop => Nat.lt_of_not_le fun hfull =>
          hstation ⟨k, bodyClass_eq_some_iff.2 ⟨r, hr, hop⟩, hfull⟩,
        fun r hr hop => Nat.lt_of_not_le fun hfull => hqueue ⟨bodyIs_isMemory_iff.2 ⟨r, hr, hop⟩, hfull⟩⟩
  rw [hroom, not_and_or, not_and_or, not_not, not_not, Nat.not_lt]

theorem RoomLeft.rob_eq_zero_iff {r : Room} {s : State} (h : RoomLeft r s) :
    r.rob = 0 ↔ s.cfg.robCap ≤ s.robCount := by
  rw [h.rob, Nat.sub_eq_zero_iff_le]

theorem RoomLeft.hasStation_eq_false_iff {r : Room} {s : State} (h : RoomLeft r s) (f : FetchRec) :
    r.hasStation (bodyClass f.body) = false ↔ s.StationFull f := by
  unfold State.StationFull Room.hasStation
  cases bodyClass f.body with
  | none => simp
  | some k => simp [h.rs, Nat.sub_eq_zero_iff_le]

theorem RoomLeft.queueFull_iff {r : Room} {s : State} (h : RoomLeft r s) (f : FetchRec) :
    (bodyIs isMemory f.body = true ∧ r.lsq = 0) ↔ s.QueueFull f := by
  rw [State.QueueFull, h.lsq, Nat.sub_eq_zero_iff_le]

/-! ### The decode loop -/

/-- The stall decode counts when it finds no room for a record: the first cause in the order of R90. -/
inductive Stalls (s : State) (f : FetchRec) : State → Prop where
  | rob (h : s.cfg.robCap ≤ s.robCount) :
    Stalls s f { s with metrics := { s.metrics with stallRobFull := s.metrics.stallRobFull + 1 } }
  | rs (hrob : s.robCount < s.cfg.robCap) (h : s.StationFull f) :
    Stalls s f { s with metrics := { s.metrics with stallRsFull := s.metrics.stallRsFull + 1 } }
  | lsq (hrob : s.robCount < s.cfg.robCap) (hrs : ¬ s.StationFull f) (h : s.QueueFull f) :
    Stalls s f { s with metrics := { s.metrics with stallLsqFull := s.metrics.stallLsqFull + 1 } }

/-- The decode loop with `n` records left takes `taken` from the head of the buffer, and ends in `t`: with `n` taken, with an
empty buffer, or at a record without room (R90). -/
inductive Decodes : Nat → State → List FetchRec → State → Prop where
  | full (s : State) : Decodes 0 s [] s
  | empty {n : Nat} {s : State} (h : s.fb = []) : Decodes (n + 1) s [] s
  | stall {n : Nat} {s t : State} {f : FetchRec} {rest : List FetchRec} (h : s.fb = f :: rest) (hs : Stalls s f t) :
    Decodes (n + 1) s [] t
  | take {n : Nat} {s t : State} {f : FetchRec} {rest taken : List FetchRec} (h : s.fb = f :: rest)
    (room : DecodeRoom s f) (more : Decodes n (State.allocate { s with fb := s.fb.tail } f) taken t) :
    Decodes (n + 1) s (f :: taken) t

theorem decodeLoop_decodes (n : Nat) (r : Room) (s : State) (h : RoomLeft r s) :
    ∃ taken, Decodes n s taken (decodeLoop n r s) := by
  induction n generalizing r s with
  | zero => exact ⟨[], .full s⟩
  | succ n ih =>
    unfold decodeLoop
    split
    · rename_i hfb
      exact ⟨[], .empty hfb⟩
    · rename_i f rest hfb
      split
      · rename_i hrob
        exact ⟨[], .stall hfb (.rob (h.rob_eq_zero_iff.1 hrob))⟩
      · rename_i hrob
        rw [h.rob_eq_zero_iff, Nat.not_le] at hrob
        split
        · rename_i hrs
          exact ⟨[], .stall hfb (.rs hrob ((h.hasStation_eq_false_iff f).1 hrs))⟩
        · rename_i hrs
          rw [h.hasStation_eq_false_iff f] at hrs
          split
          · rename_i hlsq
            exact ⟨[], .stall hfb (.lsq hrob hrs ((h.queueFull_iff f).1 hlsq))⟩
          · rename_i hlsq
            rw [h.queueFull_iff f] at hlsq
            have room : DecodeRoom s f := by
              by_contra hno
              rcases not_decodeRoom_iff.1 hno with hfull | hfull | hfull
              · exact absurd hrob (Nat.not_lt.2 hfull)
              · exact hrs hfull
              · exact hlsq hfull
            have htail : s.fb.tail = rest := by rw [hfb]; rfl
            obtain ⟨taken, hmore⟩ := ih _ _ (h.take f)
            rw [htail] at hmore
            exact ⟨f :: taken, .take hfb room (by rw [htail]; exact hmore)⟩

theorem State.decodeStage_decodes {s : State} (h : s.dl = []) :
    ∃ taken, Decodes s.cfg.issueWidth s taken s.decodeStage := by
  rw [State.decodeStage, if_pos (by rw [h]; rfl)]
  exact decodeLoop_decodes _ _ _ (.start h)

theorem Stalls.not_decodeRoom {s t : State} {f : FetchRec} (h : Stalls s f t) : ¬ DecodeRoom s f := by
  rw [not_decodeRoom_iff]
  cases h with
  | rob h => exact .inl h
  | rs _ h => exact .inr (.inl h)
  | lsq _ _ h => exact .inr (.inr h)

/-- What a stall counts, by its cause, as R90 orders them. -/
structure StallCounted (s : State) (f : FetchRec) (t : State) : Prop where
  rob : s.cfg.robCap ≤ s.robCount →
    t = { s with metrics := { s.metrics with stallRobFull := s.metrics.stallRobFull + 1 } }
  rs : ∀ r k, s.robCount < s.cfg.robCap → f.body = some r → opClass r.op = some k → s.cfg.rsCap.get k ≤ s.taken k →
    t = { s with metrics := { s.metrics with stallRsFull := s.metrics.stallRsFull + 1 } }
  lsq : ∀ r, s.robCount < s.cfg.robCap → f.body = some r → r.op = .lw ∨ r.op = .sw →
    s.taken .lsu < s.cfg.rsCap.lsu → s.cfg.lsqCap ≤ s.lsq.length →
    t = { s with metrics := { s.metrics with stallLsqFull := s.metrics.stallLsqFull + 1 } }

theorem Stalls.counted {s t : State} {f : FetchRec} (h : Stalls s f t) : StallCounted s f t := by
  have station : ∀ {r k}, f.body = some r → opClass r.op = some k → s.cfg.rsCap.get k ≤ s.taken k → s.StationFull f :=
    fun hr hop hfull => ⟨_, bodyClass_eq_some_iff.2 ⟨_, hr, hop⟩, hfull⟩
  have free : ∀ {r}, f.body = some r → r.op = .lw ∨ r.op = .sw → s.taken .lsu < s.cfg.rsCap.lsu →
      ¬ s.StationFull f := by
    rintro r hr hop hroom ⟨k, hk, hfull⟩
    obtain ⟨r', hr', hop'⟩ := bodyClass_eq_some_iff.1 hk
    obtain rfl : r = r' := Option.some.inj (hr.symm.trans hr')
    have hk : k = .lsu := by rcases hop with hop | hop <;> rw [hop] at hop' <;> exact (Option.some.inj hop').symm
    rw [hk] at hfull
    exact absurd hroom (Nat.not_lt.2 hfull)
  cases h with
  | rob h => exact ⟨fun _ => rfl, fun _ _ hlt => absurd h (Nat.not_le.2 hlt), fun _ hlt => absurd h (Nat.not_le.2 hlt)⟩
  | rs hrob h =>
    exact ⟨fun hfull => absurd hrob (Nat.not_lt.2 hfull), fun _ _ _ _ _ _ => rfl,
      fun _ _ hr hop hroom _ => absurd h (free hr hop hroom)⟩
  | lsq hrob hrs h =>
    exact ⟨fun hfull => absurd hrob (Nat.not_lt.2 hfull), fun _ _ _ hr hop hfull => absurd (station hr hop hfull) hrs,
      fun _ _ _ _ _ _ => rfl⟩

namespace Decodes

variable {n : Nat} {s t : State} {taken : List FetchRec}

theorem length_le (h : Decodes n s taken t) : taken.length ≤ n := by
  induction h with
  | full | empty | stall => exact Nat.zero_le _
  | take _ _ _ ih => exact Nat.succ_le_succ ih

/-- The records taken are the first of the buffer, and leave the rest there. -/
theorem fb_eq (h : Decodes n s taken t) : s.fb = taken ++ (s.decodeAll taken).fb := by
  induction h with
  | full | empty | stall => rfl
  | take hfb _ _ ih =>
    rw [State.decodeAll_cons, List.cons_append, ← ih, State.allocate_fb, hfb]
    rfl

theorem decodeRoom (h : Decodes n s taken t) :
    ∀ pre f post, taken = pre ++ f :: post → DecodeRoom (s.decodeAll pre) f := by
  induction h with
  | full | empty | stall => exact fun pre f post h => absurd h (by simp)
  | take hfb room _ ih =>
    intro pre f post h
    cases pre with
    | nil =>
      obtain ⟨rfl, -⟩ := List.cons.inj h
      exact room
    | cons g pre =>
      obtain ⟨rfl, hrest⟩ := List.cons.inj h
      exact ih pre f post hrest

/-- Decode ends with nothing counted when it has taken its width or the buffer is empty. -/
theorem eq_decodeAll (h : Decodes n s taken t) (hend : taken.length = n ∨ (s.decodeAll taken).fb = []) :
    t = s.decodeAll taken := by
  induction h with
  | full | empty => rfl
  | stall hfb hs =>
    rcases hend with hlen | hempty
    · cases hlen
    · exact absurd (hfb.symm.trans hempty) (by simp)
  | take _ _ _ ih => exact ih (hend.imp_left Nat.succ.inj)

/-- Decode ends before its width only at a record without room, with one stall counted. -/
theorem stalls (h : Decodes n s taken t) (hlen : taken.length < n) {f : FetchRec} {more : List FetchRec}
    (hrest : (s.decodeAll taken).fb = f :: more) : Stalls (s.decodeAll taken) f t := by
  induction h with
  | full => cases hlen
  | empty hfb => exact absurd (hfb.symm.trans hrest) (by simp)
  | stall hfb hs =>
    obtain ⟨rfl, -⟩ := List.cons.inj (hfb.symm.trans hrest)
    exact hs
  | take _ _ _ ih => exact ih (Nat.lt_of_succ_lt_succ hlen) hrest

/-- Decode takes nothing when there is no room for the first record. -/
theorem stalls_of_no_room (h : Decodes n s taken t) (hn : 0 < n) {f : FetchRec} {rest : List FetchRec}
    (hfb : s.fb = f :: rest) (hroom : ¬ DecodeRoom s f) : Stalls s f t := by
  cases h with
  | full => cases hn
  | empty hempty => exact absurd (hempty.symm.trans hfb) (by simp)
  | stall hfb' hs =>
    obtain ⟨rfl, -⟩ := List.cons.inj (hfb'.symm.trans hfb)
    exact hs
  | take hfb' room =>
    obtain ⟨rfl, -⟩ := List.cons.inj (hfb'.symm.trans hfb)
    exact absurd room hroom

end Decodes

/-! ### The obligation on decode -/

theorem State.taken_of_dl_nil {s : State} (h : s.dl = []) (k : FuClass) : s.taken k = countValid (s.rs.get k) := by
  simp [State.taken, State.latched, h]

/-- Settles O52: what the decode loop takes, and the stall where it stops. -/
theorem decodeBackpressure : Obligations.DecodeBackpressure := by
  refine ⟨fun s hdl => ?_, fun s hdl => ?_, fun s f rest hdl hfb hw => ?_⟩
  · rw [State.decodeStage, if_neg (by simpa using hdl)]
  · obtain ⟨taken, h⟩ := State.decodeStage_decodes hdl
    refine ⟨taken, _, h.fb_eq, h.length_le, h.decodeRoom, rfl, h.eq_decodeAll, fun hlen f more hrest => ?_⟩
    have hs := h.stalls hlen hrest
    exact ⟨hs.not_decodeRoom, hs.counted.rob, hs.counted.rs, hs.counted.lsq⟩
  · obtain ⟨taken, h⟩ := State.decodeStage_decodes hdl
    have counted : ¬ DecodeRoom s f → StallCounted s f s.decodeStage := fun hroom =>
      (h.stalls_of_no_room hw hfb hroom).counted
    rw [not_decodeRoom_iff] at counted
    refine ⟨fun hrob => (counted (.inl hrob)).rob hrob, fun r k hrob hr hop hfull => ?_,
      fun r hrob hr hop hroom hfull => ?_⟩
    · rw [← s.taken_of_dl_nil hdl] at hfull
      exact (counted (.inr (.inl ⟨k, bodyClass_eq_some_iff.2 ⟨r, hr, hop⟩, hfull⟩))).rs r k hrob hr hop hfull
    · rw [← show s.taken .lsu = countValid s.rs.lsu from s.taken_of_dl_nil hdl .lsu] at hroom
      exact (counted (.inr (.inr ⟨bodyIs_isMemory_iff.2 ⟨r, hr, hop⟩, hfull⟩))).lsq r hrob hr hop hroom hfull

end Sys2Proof.Machine
end

section
/-!
SUPPORT. The commit loop as a relation: the entries a tick retires, one after the other, and how it ends (R140 to R149).
-/

namespace Sys2Proof.Machine

/-! ### What a commit does to the architectural state -/

/-- A commit writes the destination, and no other register (R143). -/
theorem State.reg_commitOne (s : State) (e : RobEntry) (r : Reg) :
    (s.commitOne e).reg r = if e.dest = some r ∧ r ≠ 0 then e.value else s.reg r := by
  unfold State.reg
  rw [State.regEntry_commitOne, State.regEntry_commitRegister]
  by_cases hr : r = 0
  · rw [if_pos hr, if_pos hr, if_neg fun h => h.2 hr]
  · rw [if_neg hr, if_neg hr]
    split <;> rfl

theorem State.commitOne_committed (s : State) (e : RobEntry) :
    (s.commitOne e).metrics.instructionsCommitted = s.metrics.instructionsCommitted + 1 := by
  have control : ∀ t : State,
      (t.commitControl e).metrics.instructionsCommitted = t.metrics.instructionsCommitted := by
    intro t
    unfold State.commitControl
    split <;> rfl
  have store : ∀ t : State, (t.commitStore e).metrics.instructionsCommitted = t.metrics.instructionsCommitted := by
    intro t
    unfold State.commitStore
    split <;> rfl
  simp [State.commitOne, control, store]

theorem State.reg_squashAfter (s : State) (e : RobEntry) (r : Reg) : (s.squashAfter e).reg r = s.reg r := by
  unfold State.reg
  rw [State.regEntry_squashAfter]

/-! ### The relation -/

/-- The commit loop with `n` retirements left, in a tick that has written the registers `w`: it retires the entries `l` and
ends in `t`, with `n` retired, at a head that waits or whose fault it surfaces, or after an entry that ends the run or was
mispredicted (R140). -/
inductive Commits : Nat → List Reg → State → List RobEntry → State → Prop where
  | full (w : List Reg) (s : State) : Commits 0 w s [] s
  | wait {n : Nat} {w : List Reg} {s : State} (h : s.headAction w = .wait) : Commits (n + 1) w s [] s
  | surface {n : Nat} {w : List Reg} {s : State} {e : RobEntry} {c : Cause} {a : Word}
    (h : s.headAction w = .surface e c a) : Commits (n + 1) w s [] (s.surface c e.pc e.seq a)
  | halt {n : Nat} {w : List Reg} {s : State} {e : RobEntry} (h : s.headAction w = .retire e) (ends : e.halts = true) :
    Commits (n + 1) w s [e] (s.commitOne e).halt
  | squash {n : Nat} {w : List Reg} {s : State} {e : RobEntry} (h : s.headAction w = .retire e) (goes : e.halts = false)
    (wrong : e.mispredicted = true) : Commits (n + 1) w s [e] ((s.commitOne e).squashAfter e)
  | retire {n : Nat} {w : List Reg} {s t : State} {e : RobEntry} {l : List RobEntry} (h : s.headAction w = .retire e)
    (goes : e.halts = false) (right : e.mispredicted = false)
    (more : Commits n (e.addWritten w) (s.commitOne e) l t) : Commits (n + 1) w s (e :: l) t

theorem commitLoop_commits (n : Nat) (w : List Reg) (s : State) :
    Commits n w s (commitLog n w s) (commitLoop n w s) := by
  induction n generalizing w s with
  | zero => exact .full w s
  | succ n ih =>
    unfold commitLog commitLoop
    split <;> rename_i hact
    · exact .wait hact
    · exact .surface hact
    · rename_i e
      cases hends : e.halts with
      | true => exact .halt hact hends
      | false =>
        cases hwrong : e.mispredicted with
        | true => exact .squash hact hends hwrong
        | false => exact .retire hact hends hwrong (ih _ _)

theorem State.commitStage_commits (s : State) : Commits s.cfg.commitWidth [] s s.commitStageLog s.commitStage :=
  commitLoop_commits ..

/-! ### The head -/

theorem RobEntry.writtenTwice_iff (e : RobEntry) (w : List Reg) :
    e.writtenTwice w = true ↔ ∃ d, e.dest = some d ∧ d ∈ w := by
  unfold RobEntry.writtenTwice
  cases e.dest <;> simp

theorem RobEntry.mem_addWritten (e : RobEntry) (w : List Reg) (d : Reg) :
    d ∈ e.addWritten w ↔ e.dest = some d ∨ d ∈ w := by
  unfold RobEntry.addWritten
  cases e.dest <;> simp [eq_comm]

theorem exitRequested_eq_false_iff (v : Word) : exitRequested v = false ↔ v ≠ 10 := by
  rw [exitRequested_eq, decide_eq_false_iff_not]

/-- The head is retired unless one of the reasons of R140 stops it. -/
theorem State.headAction_eq_retire {s : State} {w : List Reg} (hcount : s.robCount ≠ 0)
    (hdone : s.headEntry.completed = true) (hexc : s.headEntry.exception = none)
    (hw : s.headEntry.writtenTwice w = false) (hsys : ¬ (s.headEntry.op = some .syscall ∧ s.reg 2 ≠ 10)) :
    s.headAction w = .retire s.headEntry := by
  rw [← exitRequested_eq_false_iff] at hsys
  simp only [State.headAction, if_neg hcount, hdone, hexc, hw, if_neg hsys, Bool.true_eq_false, if_false,
    Bool.false_eq_true]

/-- Why the head is not retired (R140 to R142). -/
inductive HeadStops (s : State) (w : List Reg) : Prop where
  | empty (h : s.robCount = 0)
  | pending (h : s.headEntry.completed = false)
  | exception (h : s.headEntry.exception ≠ none)
  | written (d : Reg) (hd : s.headEntry.dest = some d) (hw : d ∈ w)
  | syscall (hop : s.headEntry.op = some .syscall) (h : s.reg 2 ≠ 10)

theorem HeadStops.of_wait {s : State} {w : List Reg} (h : s.headAction w = .wait) : HeadStops s w := by
  rcases headAction_wait h with h | h | h
  · exact .empty h
  · exact .pending h
  · obtain ⟨d, hd, hw⟩ := (s.headEntry.writtenTwice_iff w).1 h
    exact .written d hd hw

theorem HeadStops.of_surface {s : State} {w : List Reg} {e : RobEntry} {c : Cause} {a : Word}
    (h : s.headAction w = .surface e c a) : HeadStops s w := by
  obtain ⟨rfl, ⟨hexc, -⟩ | ⟨hop, hexit, -⟩⟩ := headAction_surface h
  · exact .exception (by simp [hexc])
  · exact .syscall hop ((exitRequested_eq_false_iff _).1 hexit)

/-! ### What the relation says of the entries retired -/

/-- Why a tick commits no more entries after `l`: `n` are committed, the next head is stopped, or the last entry committed
ended the run or was mispredicted. -/
def CommitStops (n : Nat) (w : List Reg) (s : State) (l : List RobEntry) : Prop :=
  l.length = n ∨ HeadStops (s.commitAll l) (l.filterMap (·.dest) ++ w) ∨
    ∃ e, l.getLast? = some e ∧ (e.halts = true ∨ e.mispredicted = true)

theorem HeadStops.mono {s : State} {w w' : List Reg} (h : HeadStops s w) (hw : ∀ d, d ∈ w → d ∈ w') :
    HeadStops s w' := by
  cases h with
  | empty h => exact .empty h
  | pending h => exact .pending h
  | exception h => exact .exception h
  | written d hd h => exact .written d hd (hw d h)
  | syscall hop h => exact .syscall hop h

theorem SameArch.squash (s : State) (e : RobEntry) : SameArch s (s.squashAfter e) where
  regs := s.reg_squashAfter e
  bytes := State.readByte_congr (s.squashAfter_mem e)
  pc := s.squashAfter_archPc e

namespace Commits

variable {n : Nat} {w : List Reg} {s t : State} {l : List RobEntry}

theorem length_le (h : Commits n w s l t) : l.length ≤ n := by
  induction h with
  | full | wait | surface => exact Nat.zero_le _
  | halt | squash => exact Nat.succ_le_succ (Nat.zero_le _)
  | retire _ _ _ _ ih => exact Nat.succ_le_succ ih

theorem committed (h : Commits n w s l t) :
    t.metrics.instructionsCommitted = s.metrics.instructionsCommitted + l.length := by
  induction h with
  | full | wait | surface => rfl
  | halt | squash => exact State.commitOne_committed ..
  | retire _ _ _ _ ih => rw [ih, State.commitOne_committed, List.length_cons, Nat.add_assoc, Nat.add_comm 1]

/-- Each entry retired is the head when the ones before it have been, completed and without an exception. -/
theorem heads (h : Commits n w s l t) : ∀ pre e post, l = pre ++ e :: post →
    e = (s.commitAll pre).headEntry ∧ e.completed = true ∧ e.exception = none := by
  induction h with
  | full | wait | surface => exact fun pre e post h => absurd h (by simp)
  | halt hact | squash hact =>
    intro pre e post h
    cases pre with
    | nil =>
      obtain ⟨rfl, -⟩ := List.cons.inj h
      obtain ⟨he, -, hdone, hexc, -⟩ := headAction_retire hact
      exact ⟨he, hdone, hexc⟩
    | cons x pre => exact absurd (List.cons.inj h).2 (by simp)
  | retire hact _ _ _ ih =>
    intro pre e post h
    cases pre with
    | nil =>
      obtain ⟨rfl, -⟩ := List.cons.inj h
      obtain ⟨he, -, hdone, hexc, -⟩ := headAction_retire hact
      exact ⟨he, hdone, hexc⟩
    | cons x pre =>
      obtain ⟨rfl, hrest⟩ := List.cons.inj h
      exact ih pre e post hrest

theorem stops (h : Commits n w s l t) : CommitStops n w s l := by
  induction h with
  | full => exact .inl rfl
  | wait h => exact .inr (.inl (.of_wait h))
  | surface h => exact .inr (.inl (.of_surface h))
  | halt _ ends => exact .inr (.inr ⟨_, rfl, .inl ends⟩)
  | squash _ _ wrong => exact .inr (.inr ⟨_, rfl, .inr wrong⟩)
  | @retire n w s t e l _ _ _ _ ih =>
    rcases ih with hlen | hstop | ⟨x, hx, hend⟩
    · exact .inl (congrArg (· + 1) hlen)
    · refine .inr (.inl (hstop.mono fun d hd => ?_))
      rw [List.mem_append, e.mem_addWritten] at hd
      rw [List.mem_append, List.mem_filterMap]
      rcases hd with hd | hd | hd
      · obtain ⟨x, hx, hdest⟩ := List.mem_filterMap.1 hd
        exact .inl ⟨x, List.mem_cons_of_mem e hx, hdest⟩
      · exact .inl ⟨e, List.mem_cons_self, hd⟩
      · exact .inr hd
    · refine .inr (.inr ⟨x, ?_, hend⟩)
      rw [List.getLast?_cons, hx]
      rfl

theorem sameArch (h : Commits n w s l t) : SameArch (s.commitAll l) t := by
  induction h with
  | full | wait | surface | halt => exact .of_fields rfl rfl rfl
  | squash => exact .squash _ _
  | retire _ _ _ _ ih => exact ih

/-- A head that nothing stops is retired first. -/
theorem head_of_retire (h : Commits n w s l t) (hn : 0 < n) {e : RobEntry} (hact : s.headAction w = .retire e) :
    l.head? = some e := by
  cases h with
  | full => cases hn
  | wait h | surface h => cases h.symm.trans hact
  | halt h | squash h | retire h => exact congrArg some (HeadAction.retire.inj (h.symm.trans hact))

end Commits

/-! ### The obligation -/

theorem State.tick_committed (s : State) :
    s.tick.metrics.instructionsCommitted = s.commitStage.metrics.instructionsCommitted := by
  simp [State.tick]

/-- Settles O38: the commit stage is the relation above, and no other stage counts a commit. -/
theorem committedCountIsLog : Obligations.CommittedCountIsLog := by
  intro s
  have h := s.commitStage_commits
  refine ⟨by rw [s.tick_committed, h.committed], h.length_le, fun e he => ?_, fun hw hcount hdone hexc hsys => ?_,
    fun pre e post hlog => (h.heads pre e post hlog).1, ?_, h.sameArch⟩
  · obtain ⟨pre, post, hlog⟩ := List.append_of_mem he
    exact (h.heads pre e post hlog).2
  · exact h.head_of_retire hw (s.headAction_eq_retire hcount hdone hexc (by
      rw [← Bool.not_eq_true, RobEntry.writtenTwice_iff]
      simp) hsys)
  · rcases h.stops with hlen | hstop | hlast
    · exact .inl hlen
    · rw [List.append_nil] at hstop
      cases hstop with
      | empty h => exact .inr (.inl h)
      | pending h => exact .inr (.inr (.inl h))
      | exception h => exact .inr (.inr (.inr (.inl h)))
      | written d hd hw => exact .inr (.inr (.inr (.inr (.inl ⟨d, hd, hw⟩))))
      | syscall hop h => exact .inr (.inr (.inr (.inr (.inr (.inl ⟨hop, h⟩)))))
    · exact .inr (.inr (.inr (.inr (.inr (.inr hlast)))))

end Sys2Proof.Machine
end

section
/-!
SUPPORT. Program order in the reorder buffer (R97, R140): what decode writes into an entry and execution leaves alone, and
the sequence numbers along the ring.
-/

namespace Sys2Proof.Machine

/-! ### What execution leaves of a ROB entry -/

/-- An entry without what execution writes: its result, its exception and a store's address and data (R33, R120, R128). -/
def RobEntry.shape (e : RobEntry) : RobEntry :=
  { e with completed := false, value := 0, exception := none, excAddr := 0, actualTaken := false, actualNextPc := 0,
           stAddr := 0, stValue := 0 }

/-- The fields that entries of one shape share. -/
structure RobEntry.SameShape (e e' : RobEntry) : Prop where
  valid : e'.valid = e.valid
  seq : e'.seq = e.seq
  pc : e'.pc = e.pc
  op : e'.op = e.op
  dest : e'.dest = e.dest
  fetchedNextPc : e'.fetchedNextPc = e.fetchedNextPc
  isStore : e'.isStore = e.isStore
  hasLsq : e'.hasLsq = e.hasLsq

theorem RobEntry.sameShape {e e' : RobEntry} (h : e'.shape = e.shape) : e.SameShape e' := by
  unfold RobEntry.shape at h
  injections
  constructor <;> assumption

theorem RobEntry.shape_broadcast (e : RobEntry) (r : CdbResult) : (e.broadcast r).shape = e.shape := by
  unfold RobEntry.broadcast
  split <;> rfl

theorem RobEntry.shape_resolved (e : RobEntry) (kind : LsqKind) (ea data : Word) (fault : Option Cause) :
    (e.resolved kind ea data fault).shape = e.shape := by
  cases kind <;> cases fault <;> rfl

theorem State.resolve_shape (s : State) (u : FuUnit) :
    (s.resolve u).rob.map RobEntry.shape = s.rob.map RobEntry.shape := by
  unfold State.resolve
  split
  · rfl
  · exact map_updateAt_of_eq (fun e => e.shape_resolved ..) ..

theorem State.advanceUnit_shape (s : State) (k : FuClass) (j : Nat) :
    (s.advanceUnit k j).rob.map RobEntry.shape = s.rob.map RobEntry.shape := by
  cases k with
  | alu | fpu => rw [(s.advanceUnit_resolves_none (by decide) j).rob]
  | lsu =>
    rw [(s.advanceUnit_lsu_resolves j).rob]
    split
    · exact s.resolve_shape _
    · rfl

/-- The execute stage leaves the shape of every entry alone (R120, R128). -/
theorem State.executeStage_shape (s : State) :
    s.executeStage.rob.map RobEntry.shape = s.rob.map RobEntry.shape := by
  refine State.executeStage_keeps (P := fun t => t.rob.map RobEntry.shape = s.rob.map RobEntry.shape) ?_ ?_ ?_ ?_ s rfl
  · intro t ht
    rw [State.selectStage_rob]
    exact ht
  · exact fun t k j ht => (t.advanceUnit_shape k j).trans ht
  · exact fun t q ht => ht
  · intro t r ht
    rw [State.broadcastOne_rob, map_updateAt_of_eq (fun e => e.shape_broadcast r)]
    exact ht

/-! ### The invariant -/

/-- The ROB is a ring in program order (R32, R97). -/
structure RingOrdered (s : State) : Prop where
  ring : RobRing s
  ordered : RobOrdered s

/-- What program order depends on: the ring, its entries but for what execution writes, and `seq_next`. -/
structure SameOrder (s t : State) : Prop where
  cfg : t.cfg = s.cfg
  head : t.robHead = s.robHead
  tail : t.robTail = s.robTail
  count : t.robCount = s.robCount
  entries : t.rob.map RobEntry.shape = s.rob.map RobEntry.shape
  next : s.seqNext ≤ t.seqNext

theorem SameOrder.shape {s t : State} (h : SameOrder s t) (i : Nat) : (s.robAt i).SameShape (t.robAt i) :=
  RobEntry.sameShape (entryAt_of_map_eq h.entries RobEntry.empty i)

theorem SameOrder.ring {s t : State} (h : SameOrder s t) (hs : RobRing s) : RobRing t where
  size := by
    have hlen := congrArg List.length h.entries
    rw [List.length_map, List.length_map] at hlen
    rw [hlen, h.cfg, hs.size]
  head := by rw [h.head, h.cfg]; exact hs.head
  count := by rw [h.count, h.cfg]; exact hs.count
  tail := by rw [h.tail, h.head, h.count, h.cfg]; exact hs.tail
  valid i hi := by
    rw [h.cfg] at hi
    rw [(h.shape i).valid, hs.valid i hi]
    unfold State.inWindow
    rw [h.head, h.count, h.cfg]

theorem SameOrder.windowSeq {s t : State} (h : SameOrder s t) (k : Nat) :
    (t.windowEntry k).seq = (s.windowEntry k).seq := by
  rw [State.windowEntry, h.head, h.cfg]
  exact (h.shape _).seq

theorem RingOrdered.congr {s t : State} (h : SameOrder s t) (hs : RingOrdered s) : RingOrdered t where
  ring := h.ring hs.ring
  ordered :=
    { rising := fun j k hjk hk => by
        rw [h.windowSeq, h.windowSeq]
        exact hs.ordered.rising j k hjk (h.count ▸ hk)
      below := fun k hk => by
        rw [h.windowSeq]
        exact lt_of_lt_of_le (hs.ordered.below k (h.count ▸ hk)) h.next }

theorem SameEngine.sameOrder {s t : State} (h : SameEngine s t) (hnext : s.seqNext ≤ t.seqNext) : SameOrder s t :=
  ⟨h.cfg, h.robHead, h.robTail, h.robCount, by rw [h.rob], hnext⟩

theorem RingOrdered.untouched {s t : State} (hs : RingOrdered s)
    (h : (t.cfg, t.robHead, t.robTail, t.robCount, t.rob, t.seqNext) =
      (s.cfg, s.robHead, s.robTail, s.robCount, s.rob, s.seqNext)) : RingOrdered t := by
  obtain ⟨cfg, head, tail, count, rob, next⟩ : t.cfg = s.cfg ∧ t.robHead = s.robHead ∧ t.robTail = s.robTail ∧
    t.robCount = s.robCount ∧ t.rob = s.rob ∧ t.seqNext = s.seqNext := by simpa using h
  exact hs.congr ⟨cfg, head, tail, count, by rw [rob], le_of_eq next.symm⟩

/-! ### Commit -/

/-- After a commit the window begins one entry later. -/
theorem State.windowSeq_commitOne (s : State) (e : RobEntry) (k : Nat) :
    ((s.commitOne e).windowEntry k).seq = (s.windowEntry (k + 1)).seq := by
  have hpos : ((s.robHead + 1) % s.cfg.robCap + k) % s.cfg.robCap = (s.robHead + (k + 1)) % s.cfg.robCap := by
    rw [Nat.mod_add_mod, Nat.add_assoc, Nat.add_comm 1]
  rw [State.windowEntry, State.commitOne_robHead, State.commitOne_cfg, hpos, State.robAt_commitOne]
  split <;> rfl

theorem RingOrdered.commitOne {s : State} (hs : RingOrdered s) (e : RobEntry) (hcount : s.robCount ≠ 0) :
    RingOrdered (s.commitOne e) where
  ring := hs.ring.commitOne e hcount
  ordered :=
    { rising := fun j k hjk hk => by
        rw [State.commitOne_robCount] at hk
        rw [State.windowSeq_commitOne, State.windowSeq_commitOne]
        exact hs.ordered.rising (j + 1) (k + 1) (by omega) (by omega)
      below := fun k hk => by
        rw [State.commitOne_robCount] at hk
        rw [State.windowSeq_commitOne, State.commitOne_seqNext]
        exact hs.ordered.below (k + 1) (by omega) }

/-- A squash empties the ring at the head (R149). -/
theorem RobRing.squashAfter {s : State} (hs : RobRing s) (e : RobEntry) : RobRing (s.squashAfter e) where
  size := by
    rw [State.squashAfter_rob, List.length_map]
    exact hs.size
  head := hs.head
  count := Nat.zero_le _
  tail := (Nat.mod_eq_of_lt hs.head).symm
  valid t _ := by
    have hinvalid : ((s.squashAfter e).robAt t).valid = false := by
      unfold State.robAt
      rw [State.squashAfter_rob]
      exact forall_entryAt (P := fun x : RobEntry => x.valid = false) (by simp [RobEntry.empty]) t
    simp [hinvalid, State.inWindow]

theorem RingOrdered.squashAfter {s : State} (hs : RingOrdered s) (e : RobEntry) : RingOrdered (s.squashAfter e) where
  ring := hs.ring.squashAfter e
  ordered := ⟨fun _ _ _ hk => absurd hk (Nat.not_lt_zero _), fun _ hk => absurd hk (Nat.not_lt_zero _)⟩

/-! ### Decode -/

/-- With room in the ring, the entries of the window are not the tail. -/
theorem RobRing.window_ne_tail {s : State} (hs : RobRing s) (hroom : s.robCount < s.cfg.robCap) {k : Nat}
    (hk : k < s.robCount) : (s.robHead + k) % s.cfg.robCap ≠ s.robTail := by
  have hlt := hs.head
  rw [hs.tail, ring_forward hlt (by omega), ring_forward hlt (by omega)]
  split <;> split <;> omega

theorem RobRing.tail_lt {s : State} (hs : RobRing s) : s.robTail < s.cfg.robCap := by
  have hlt := hs.head
  rw [hs.tail]
  exact Nat.mod_lt _ (by omega)

/-- An allocation appends the new entry to the window (R91). -/
theorem RobRing.windowEntry_allocate {s : State} (hs : RobRing s) (hroom : s.robCount < s.cfg.robCap) (f : FetchRec)
    {k : Nat} (hk : k ≤ s.robCount) :
    (s.allocate f).windowEntry k = if k < s.robCount then s.windowEntry k else newRobEntry f s.seqNext := by
  rw [State.windowEntry, State.allocate_robHead, State.allocate_cfg]
  split
  · rename_i hlt
    exact s.robAt_allocate_of_ne f (hs.window_ne_tail hroom hlt)
  · rename_i hnlt
    obtain rfl : k = s.robCount := by omega
    rw [← hs.tail]
    exact s.robAt_allocate_tail (by rw [hs.size]; exact hs.tail_lt) f

theorem RingOrdered.allocate {s : State} (hs : RingOrdered s) (f : FetchRec) (hroom : s.robCount < s.cfg.robCap) :
    RingOrdered (s.allocate f) where
  ring := hs.ring.allocate f hroom
  ordered := by
    have hentry := fun k => hs.ring.windowEntry_allocate hroom f (k := k)
    refine ⟨fun j k hjk hk => ?_, fun k hk => ?_⟩
    · rw [State.allocate_robCount] at hk
      rw [hentry j (by omega), hentry k (by omega), if_pos (by omega)]
      split
      · exact hs.ordered.rising j k hjk ‹_›
      · exact hs.ordered.below j (by omega)
    · rw [State.allocate_robCount] at hk
      rw [hentry k (by omega), State.allocate_seqNext]
      split
      · exact Nat.lt_succ_of_lt (hs.ordered.below k ‹_›)
      · exact Nat.lt_succ_self _

/-- Program order, and the ROB room the decode loop carries (R90). -/
structure RingOrdered.WithRoom (r : Room) (s : State) : Prop where
  room : r.rob = s.cfg.robCap - s.robCount
  kept : RingOrdered s

theorem RingOrdered.WithRoom.take {r : Room} {s : State} (hs : RingOrdered.WithRoom r s) (f : FetchRec)
    (rest : List FetchRec) (hfits : r.Fits f.body) :
    RingOrdered.WithRoom (r.take f.body) (State.allocate { s with fb := rest } f) := by
  have hr := hs.room
  have hne := hfits.rob
  have hpopped : RingOrdered { s with fb := rest } := hs.kept.untouched rfl
  have hroom : s.robCount < s.cfg.robCap := by omega
  refine ⟨?_, hpopped.allocate f hroom⟩
  rw [State.allocate_robCount, State.allocate_cfg]
  show r.rob - 1 = s.cfg.robCap - (s.robCount + 1)
  omega

theorem RingOrdered.decodeStage {s : State} (hs : RingOrdered s) : RingOrdered s.decodeStage := by
  unfold State.decodeStage
  split
  · obtain ⟨_, _, h⟩ := decodeLoop_keeps (P := fun _ => RingOrdered.WithRoom)
      (fun _ _ _ f rest _ hfits ht => ht.take f rest hfits)
      (fun _ _ _ _ _ ht => ⟨ht.room, ht.kept.untouched rfl⟩) s.cfg.issueWidth s.room s ⟨rfl, hs⟩
    exact h.kept
  · exact hs

/-! ### The obligation -/

theorem keptByParts_ringOrdered : KeptByParts RingOrdered where
  ends h := .congr (h.sameEngine.sameOrder h.seqNext_le)
  commit := State.commitStage_keeps (fun _ _ e hact hs => hs.commitOne e (headAction_retire hact).2.1)
    (fun _ _ e hact hs => (hs.commitOne e (headAction_retire hact).2.1).squashAfter e) (fun _ _ hs => hs.untouched rfl)
  memory _ hs := hs.untouched (by simp)
  execute s := .congr ⟨by simp, by simp, by simp, by simp, s.executeStage_shape, by simp⟩
  issue _ hs := hs.untouched (by simp)
  decode _ hs := hs.decodeStage
  fetch _ hs := hs.untouched (by simp)
  clock _ _ _ hs := hs.untouched rfl

theorem RobRing.headEntry_eq {s : State} (hs : RobRing s) : s.headEntry = s.windowEntry 0 := by
  rw [State.windowEntry, Nat.add_zero, Nat.mod_eq_of_lt hs.head, State.headEntry]

/-- The entries a tick retires rise, from above any number below the window. -/
theorem Commits.seq_rising {n : Nat} {w : List Reg} {s t : State} {l : List RobEntry} (h : Commits n w s l t)
    (hs : RingOrdered s) :
    (l.map (·.seq)).Pairwise (· < ·) ∧ (∀ e, e ∈ l → e.seq < s.seqNext) ∧
      ∀ b, (∀ k, k < s.robCount → b < (s.windowEntry k).seq) → ∀ e, e ∈ l → b < e.seq := by
  have head : ∀ {s : State} {w : List Reg} {e : RobEntry}, RingOrdered s → s.headAction w = .retire e →
      e = s.windowEntry 0 ∧ 0 < s.robCount := fun hs hact =>
    ⟨(headAction_retire hact).1.trans hs.ring.headEntry_eq, Nat.pos_of_ne_zero (headAction_retire hact).2.1⟩
  induction h with
  | full | wait | surface => simp
  | halt hact | squash hact =>
    obtain ⟨rfl, hpos⟩ := head hs hact
    simpa using ⟨hs.ordered.below 0 hpos, fun b hb => hb 0 hpos⟩
  | @retire n w s t e l hact _ _ _ ih =>
    obtain ⟨rfl, hpos⟩ := head hs hact
    obtain ⟨hrise, hbelow, habove⟩ := ih (hs.commitOne _ hpos.ne')
    have hlast : ∀ k, k < (s.commitOne (s.windowEntry 0)).robCount →
        (s.windowEntry 0).seq < ((s.commitOne (s.windowEntry 0)).windowEntry k).seq := fun k hk => by
      rw [State.commitOne_robCount] at hk
      rw [State.windowSeq_commitOne]
      exact hs.ordered.rising 0 (k + 1) (by omega) (by omega)
    have hrest := habove _ hlast
    refine ⟨?_, ?_, fun b hb => ?_⟩
    · rw [List.map_cons, List.pairwise_cons]
      refine ⟨fun q hq => ?_, hrise⟩
      obtain ⟨x, hx, rfl⟩ := List.mem_map.1 hq
      exact hrest x hx
    · rw [List.forall_mem_cons]
      refine ⟨hs.ordered.below 0 hpos, fun x hx => ?_⟩
      rw [← State.commitOne_seqNext s (s.windowEntry 0)]
      exact hbelow x hx
    · rw [List.forall_mem_cons]
      exact ⟨hb 0 hpos, fun x hx => lt_trans (hb 0 hpos) (hrest x hx)⟩

/-- Settles O27: every part of a step keeps the order, and the commit loop retires the window from its head. -/
theorem commitInProgramOrder : Obligations.CommitInProgramOrder := by
  intro s hring hordered
  obtain ⟨hrise, hbelow, -⟩ := s.commitStage_commits.seq_rising ⟨hring, hordered⟩
  exact ⟨fun t h => (keptByParts_ringOrdered.step h ⟨hring, hordered⟩).ordered, hrise, hbelow⟩

end Sys2Proof.Machine
end

section
/-!
SUPPORT. Decode's reservations and the I stage (R90, R94 to R96).
-/

namespace Sys2Proof.Machine

/-! ### Tables -/

/-- How an update of one entry changes a count. -/
theorem countP_updateAt {α : Type} (p : α → Bool) (f : α → α) {l : List α} {i : Nat} {x : α} (h : l[i]? = some x) :
    (updateAt f l i).countP p + (if p x then 1 else 0) = l.countP p + if p (f x) then 1 else 0 := by
  induction l generalizing i with
  | nil => simp at h
  | cons y ys ih =>
    cases i with
    | zero =>
      obtain rfl : y = x := by simpa using h
      simp only [updateAt, List.countP_cons]
      omega
    | succ i =>
      have hrest := ih (by simpa using h)
      simp only [updateAt, List.countP_cons]
      omega

theorem countP_updateAt_of_none {α : Type} (p : α → Bool) (f : α → α) {l : List α} {i : Nat} (h : l[i]? = none) :
    (updateAt f l i).countP p = l.countP p := by
  have hsame : updateAt f l i = l := by
    refine List.ext_getElem? fun j => ?_
    rw [getElem?_updateAt]
    split
    · rename_i hj
      rw [hj, h]
      rfl
    · rfl
  rw [hsame]

/-- The first entry that meets `p` is the one before which none does. -/
theorem firstIdx_eq_some {α : Type} {p : α → Bool} {l : List α} {i : Nat} {x : α} (hx : l[i]? = some x)
    (hp : p x = true) (before : ∀ y, y ∈ l.take i → p y = false) : firstIdx p l = some i := by
  induction l generalizing i with
  | nil => simp at hx
  | cons y ys ih =>
    cases i with
    | zero =>
      obtain rfl : y = x := by simpa using hx
      exact if_pos hp
    | succ i =>
      have hy : p y = false := before y (by simp)
      rw [firstIdx, hy, ih (by simpa using hx) fun z hz => before z (by simp [hz])]
      rfl

/-! ### The stations taken -/

/-- With a station of the class not taken by a valid entry, there is a free one. -/
theorem freeStation_ne_none {l : List RsEntry} (h : countValid l < l.length) : freeStation l ≠ none := by
  intro hnone
  have hall : ∀ e, e ∈ l → e.valid = true := fun e he => by simpa using firstIdx_none.1 hnone e he
  have hcount : countValid l = l.length := List.countP_eq_length.2 hall
  omega

theorem freeStation_some {l : List RsEntry} {j : Nat} (h : freeStation l = some j) :
    ∃ old, l[j]? = some old ∧ old.valid = false := by
  obtain ⟨old, hold, hfree, -⟩ := firstIdx_some h
  exact ⟨old, hold, by simpa using hfree⟩

theorem State.latched_cons {s : State} {d : DecRec} {rest : List DecRec} (h : s.dl = d :: rest) (k : FuClass) :
    s.latched k =
      State.latched { s with dl := rest } k + if bodyClass d.fetched.body = some k then 1 else 0 := by
  simp [State.latched, h, List.countP_cons]

/-! ### The issue loop -/

/-- The state after the record `d` has left the latch for station `j` of class `k` (R95). -/
def State.place (s : State) (d : DecRec) (rest : List DecRec) (r : InstrRecord) (k : FuClass) (j : Nat) : State :=
  { s with
    dl := rest
    rs := s.rs.set k (updateAt (fun _ => s.stationEntry k d r) (s.rs.get k) j) }

/-- The issue loop empties the latch: each record that needs a unit takes the lowest free station of its class (R95). -/
inductive Issues : State → State → Prop where
  | done {s : State} (h : s.dl = []) : Issues s s
  | skip {s t : State} {d : DecRec} {rest : List DecRec} (h : s.dl = d :: rest)
    (hclass : bodyClass d.fetched.body = none) (more : Issues { s with dl := rest } t) : Issues s t
  | place {s t : State} {d : DecRec} {rest : List DecRec} {r : InstrRecord} {k : FuClass} {j : Nat}
    (h : s.dl = d :: rest) (hbody : d.fetched.body = some r) (hclass : opClass r.op = some k)
    (hfree : freeStation (s.rs.get k) = some j) (more : Issues (s.place d rest r k j) t) : Issues s t

/-- Every latched record has a station that is free or that an earlier one will not take (R90, R94). -/
def State.Reserved (s : State) : Prop := ∀ k, s.taken k ≤ (s.rs.get k).length

theorem LatchReserved.reserved {s : State} (h : LatchReserved s) : s.Reserved := fun k => by
  rw [h.size]
  exact h.room k

theorem State.taken_skip {s : State} {d : DecRec} {rest : List DecRec} (h : s.dl = d :: rest)
    (hclass : bodyClass d.fetched.body = none) (k : FuClass) :
    State.taken { s with dl := rest } k = s.taken k := by
  unfold State.taken
  rw [s.latched_cons h, hclass, if_neg (by simp)]
  rfl

/-- A record that moves from the latch to a station takes no further one. -/
theorem State.taken_place {s : State} {d : DecRec} {rest : List DecRec} {r : InstrRecord} {k : FuClass} {j : Nat}
    (h : s.dl = d :: rest) (hbody : d.fetched.body = some r) (hclass : opClass r.op = some k)
    (hfree : freeStation (s.rs.get k) = some j) (k' : FuClass) :
    (s.place d rest r k j).taken k' = s.taken k' := by
  obtain ⟨old, hold, hvalid⟩ := freeStation_some hfree
  have hbc : bodyClass d.fetched.body = some k := bodyClass_eq_some_iff.2 ⟨r, hbody, hclass⟩
  unfold State.taken
  rw [s.latched_cons h, hbc]
  show countValid ((s.rs.set k _).get k') + State.latched { s with dl := rest } k' = _
  rw [PerClass.get_set]
  by_cases hk : k' = k
  · have hcount := countP_updateAt (fun e : RsEntry => e.valid) (fun _ => s.stationEntry k d r) hold
    rw [hvalid, if_neg (by simp), if_pos (show (s.stationEntry k d r).valid = true from rfl), Nat.add_zero] at hcount
    rw [if_pos hk, hk, countValid, hcount, if_pos rfl, countValid, Nat.add_assoc, Nat.add_comm 1]
  · rw [if_neg hk, if_neg (fun c => hk (Option.some.inj c).symm), Nat.add_zero]

theorem State.place_length (s : State) (d : DecRec) (rest : List DecRec) (r : InstrRecord) (k : FuClass) (j : Nat)
    (k' : FuClass) : ((s.place d rest r k j).rs.get k').length = (s.rs.get k').length := by
  show ((s.rs.set k _).get k').length = _
  rw [PerClass.get_set]
  split
  · rename_i hk
    rw [length_updateAt, hk]
  · rfl

theorem issueLoop_issues (n : Nat) (s : State) (hn : s.dl.length ≤ n) (hs : s.Reserved) : Issues s (issueLoop n s) := by
  induction n generalizing s with
  | zero => exact .done (List.length_eq_zero_iff.1 (Nat.le_zero.1 hn))
  | succ n ih =>
    unfold issueLoop
    split
    · exact .done ‹_›
    · rename_i d rest hdl
      have hrest : rest.length ≤ n := by
        rw [hdl, List.length_cons] at hn
        omega
      have skip : bodyClass d.fetched.body = none → Issues s (issueLoop n { s with dl := rest }) := fun hclass =>
        .skip hdl hclass (ih _ hrest fun k => by
          rw [State.taken_skip hdl hclass]
          exact hs k)
      split
      · rename_i hbody
        exact skip (by rw [hbody]; rfl)
      · rename_i r hbody
        split
        · rename_i hclass
          exact skip (by rw [hbody]; exact hclass)
        · rename_i k hclass
          have hlt : countValid (s.rs.get k) < (s.rs.get k).length := by
            have hk := hs k
            rw [State.taken, s.latched_cons hdl, if_pos (bodyClass_eq_some_iff.2 ⟨r, hbody, hclass⟩)] at hk
            omega
          split
          · rename_i hnone
            exact absurd hnone (freeStation_ne_none hlt)
          · rename_i j hfree
            refine .place hdl hbody hclass hfree (ih _ hrest fun k' => ?_)
            show (s.place d rest r k j).taken k' ≤ ((s.place d rest r k j).rs.get k').length
            rw [State.taken_place hdl hbody hclass hfree, State.place_length]
            exact hs k'

theorem LatchReserved.issues {s : State} (h : LatchReserved s) : Issues s s.issueStage :=
  issueLoop_issues _ _ h.width h.reserved

/-- The entry of a latched record reads the register file, the ROB and the cycle, which issue leaves alone (R95, R96). -/
theorem State.stationEntry_congr {s t : State} (hrob : t.rob = s.rob) (hrf : t.rf = s.rf) (hcycle : t.cycle = s.cycle) :
    t.stationEntry = s.stationEntry := by
  have hcapture : t.capture = s.capture := funext (State.capture_congr hrob hrf)
  funext k d r
  unfold State.stationEntry
  rw [hcapture, hcycle]

theorem State.getElem?_place (s : State) (d : DecRec) (rest : List DecRec) (r : InstrRecord) (k : FuClass) (j : Nat)
    (k' : FuClass) (j' : Nat) :
    ((s.place d rest r k j).rs.get k')[j']? =
      if k' = k ∧ j' = j then ((s.rs.get k')[j']?).map fun _ => s.stationEntry k d r else (s.rs.get k')[j']? := by
  show ((s.rs.set k _).get k')[j']? = _
  rw [PerClass.get_set]
  by_cases hk : k' = k
  · rw [if_pos hk, getElem?_updateAt, hk]
    simp
  · rw [if_neg hk, if_neg fun c => hk c.1]

namespace Issues

variable {s t : State}

theorem dl_eq_nil (h : Issues s t) : t.dl = [] := by
  induction h with
  | done h => exact h
  | skip _ _ _ ih | place _ _ _ _ _ ih => exact ih

theorem length_eq (h : Issues s t) (k : FuClass) : (t.rs.get k).length = (s.rs.get k).length := by
  induction h with
  | done => rfl
  | skip _ _ _ ih => exact ih
  | place _ _ _ _ _ ih => exact ih.trans (State.place_length ..)

theorem taken_eq (h : Issues s t) (k : FuClass) : t.taken k = s.taken k := by
  induction h with
  | done => rfl
  | skip hdl hclass _ ih => exact ih.trans (State.taken_skip hdl hclass k)
  | place hdl hbody hclass hfree _ ih => exact ih.trans (State.taken_place hdl hbody hclass hfree k)

/-- Issue leaves the occupied stations alone. -/
theorem occupied (h : Issues s t) {k : FuClass} {j : Nat} {e : RsEntry} (he : (s.rs.get k)[j]? = some e)
    (hvalid : e.valid = true) : (t.rs.get k)[j]? = some e := by
  induction h with
  | done => exact he
  | skip _ _ _ ih => exact ih he
  | @place s t d rest r k' j' _ _ _ hfree _ ih =>
    refine ih ?_
    rw [State.getElem?_place, if_neg, he]
    rintro ⟨rfl, rfl⟩
    obtain ⟨old, hold, hfree⟩ := freeStation_some hfree
    obtain rfl : e = old := Option.some.inj (he.symm.trans hold)
    rw [hvalid] at hfree
    cases hfree

/-- The record at the head of the latch takes the lowest free station of its class. -/
theorem first (h : Issues s t) {d : DecRec} {r : InstrRecord} {k : FuClass} {j : Nat} (hd : s.dl.head? = some d)
    (hbody : d.fetched.body = some r) (hclass : opClass r.op = some k) (hfree : freeStation (s.rs.get k) = some j) :
    (t.rs.get k)[j]? = some (s.stationEntry k d r) := by
  cases h with
  | done h => simp [h] at hd
  | skip h hnone =>
    obtain rfl := Option.some.inj ((congrArg List.head? h).symm.trans hd)
    rw [bodyClass_eq_some_iff.2 ⟨r, hbody, hclass⟩] at hnone
    cases hnone
  | @place _ _ d' rest r' k' j' h hbody' hclass' hfree' more =>
    obtain rfl : d' = d := Option.some.inj ((congrArg List.head? h).symm.trans hd)
    obtain rfl : r' = r := Option.some.inj (hbody'.symm.trans hbody)
    obtain rfl : k' = k := Option.some.inj (hclass'.symm.trans hclass)
    obtain rfl : j' = j := Option.some.inj (hfree'.symm.trans hfree)
    obtain ⟨old, hold, -⟩ := freeStation_some hfree
    refine more.occupied ?_ rfl
    rw [State.getElem?_place, if_pos ⟨rfl, rfl⟩, hold]
    rfl

/-- Every latched record that needs a unit is in a station of its class that was free. -/
theorem placed (h : Issues s t) {d : DecRec} {r : InstrRecord} {k : FuClass} (hd : d ∈ s.dl)
    (hbody : d.fetched.body = some r) (hclass : opClass r.op = some k) :
    ∃ (j : Nat) (old : RsEntry), (s.rs.get k)[j]? = some old ∧ old.valid = false ∧
      (t.rs.get k)[j]? = some (s.stationEntry k d r) := by
  induction h with
  | done h => simp [h] at hd
  | @skip s t d' rest h hnone more ih =>
    rw [h, List.mem_cons] at hd
    rcases hd with rfl | hd
    · rw [bodyClass_eq_some_iff.2 ⟨r, hbody, hclass⟩] at hnone
      cases hnone
    · have hrest := ih hd
      rw [State.stationEntry_congr (s := s) (by rfl) (by rfl) (by rfl)] at hrest
      exact hrest
  | @place s t d' rest r' k' j' h hbody' hclass' hfree more ih =>
    rw [h, List.mem_cons] at hd
    rcases hd with rfl | hd
    · obtain rfl : r' = r := Option.some.inj (hbody'.symm.trans hbody)
      obtain rfl : k' = k := Option.some.inj (hclass'.symm.trans hclass)
      obtain ⟨old, hold, hvalid⟩ := freeStation_some hfree
      exact ⟨j', old, hold, hvalid, (Issues.place h hbody hclass hfree more).first (by rw [h]; rfl) hbody hclass hfree⟩
    · obtain ⟨j, old, hold, hvalid, hnew⟩ := ih hd
      rw [State.stationEntry_congr (s := s) (by rfl) (by rfl) (by rfl)] at hnew
      rw [State.getElem?_place] at hold
      split at hold
      · obtain ⟨x, -, rfl⟩ := Option.map_eq_some_iff.1 hold
        cases hvalid
      · exact ⟨j, old, hold, hvalid, hnew⟩

end Issues

/-! ### The reservations hold in every state -/

/-- A part of a step that frees stations and leaves the latch alone keeps the reservations. -/
theorem LatchReserved.of_le {s t : State} (hs : LatchReserved s) (cfg : t.cfg = s.cfg) (dl : t.dl = s.dl)
    (size : ∀ k, (t.rs.get k).length = (s.rs.get k).length)
    (valid : ∀ k, countValid (t.rs.get k) ≤ countValid (s.rs.get k)) : LatchReserved t where
  width := by rw [dl, cfg]; exact hs.width
  size k := by rw [size, cfg]; exact hs.size k
  room k := by
    have hroom := hs.room k
    have hlatched : t.latched k = s.latched k := by simp only [State.latched, dl]
    rw [hlatched, cfg]
    exact le_trans (Nat.add_le_add_right (valid k) _) hroom

theorem LatchReserved.untouched {s t : State} (hs : LatchReserved s)
    (h : (t.cfg, t.dl, t.rs) = (s.cfg, s.dl, s.rs)) : LatchReserved t := by
  obtain ⟨cfg, dl, rs⟩ : t.cfg = s.cfg ∧ t.dl = s.dl ∧ t.rs = s.rs := by simpa using h
  exact hs.of_le cfg dl (fun k => by rw [rs]) fun k => by rw [rs]

theorem LatchReserved.squashAfter {s : State} (hs : LatchReserved s) (e : RobEntry) :
    LatchReserved (s.squashAfter e) where
  width := by simp
  size k := by
    rw [State.squashAfter_rs, PerClass.get_map, List.length_map]
    exact hs.size k
  room k := by
    have hvalid : countValid ((s.squashAfter e).rs.get k) = 0 := by
      rw [State.squashAfter_rs, PerClass.get_map]
      simp [countValid, List.countP_eq_zero]
    rw [hvalid]
    simp [State.latched]

theorem countValid_updateAt_free_le (l : List RsEntry) (i : Nat) :
    countValid (updateAt RsEntry.free l i) ≤ countValid l := by
  unfold countValid
  cases hx : l[i]? with
  | none => rw [countP_updateAt_of_none _ _ hx]
  | some x =>
    have hcount := countP_updateAt (fun e : RsEntry => e.valid) RsEntry.free hx
    rw [if_neg (show ¬ (RsEntry.free x).valid = true from Bool.false_ne_true)] at hcount
    omega

theorem countValid_dispatchUnits_le (lat : Nat) (k : FuClass) (us : List FuUnit) (rs : List RsEntry) :
    countValid (dispatchUnits lat k us rs).2.1 ≤ countValid rs := by
  induction us generalizing rs with
  | nil => exact le_refl _
  | cons u us ih =>
    unfold dispatchUnits
    split
    · exact ih rs
    · split
      · exact le_refl _
      · exact le_trans (ih _) (countValid_updateAt_free_le ..)

theorem LatchReserved.dispatchClass {s : State} (hs : LatchReserved s) (k : FuClass) :
    LatchReserved (s.dispatchClass k).1 := by
  have hrs : (s.dispatchClass k).1.rs = s.rs.set k (dispatchUnits (s.cfg.fuLat.get k) k (s.fu.get k) (s.rs.get k)).2.1 :=
    rfl
  refine hs.of_le (by simp) (by simp) (fun k' => ?_) fun k' => ?_
  · rw [hrs, PerClass.get_set]
    split
    · rename_i hk
      rw [hk, (dispatchUnits_length ..).2]
    · rfl
  · rw [hrs, PerClass.get_set]
    split
    · rename_i hk
      rw [hk]
      exact countValid_dispatchUnits_le ..
    · exact le_refl _

theorem LatchReserved.selectStage {s : State} (hs : LatchReserved s) : LatchReserved s.selectStage := by
  have raw : ∀ (t : State) (n : Nat), LatchReserved t → LatchReserved (t.countRaw n) :=
    fun t n ht => ht.untouched (by simp)
  exact raw _ _ (((hs.dispatchClass .alu).dispatchClass .fpu).dispatchClass .lsu)

@[simp] theorem RsEntry.wake_valid (t : Nat) (v : Word) (e : RsEntry) : (e.wake t v).valid = e.valid := by
  unfold RsEntry.wake
  split <;> rfl

theorem LatchReserved.broadcastOne {s : State} (hs : LatchReserved s) (r : CdbResult) :
    LatchReserved (s.broadcastOne r) := by
  refine hs.of_le (by simp) (by simp) (fun k => ?_) fun k => ?_
  · rw [State.broadcastOne_rs]
    split
    · rw [PerClass.get_map, List.length_map]
    · rfl
  · rw [State.broadcastOne_rs]
    split
    · simp [countValid, List.countP_map, Function.comp_def]
    · exact le_refl _

theorem LatchReserved.issueStage {s : State} (hs : LatchReserved s) : LatchReserved s.issueStage where
  width := by rw [hs.issues.dl_eq_nil]; exact Nat.zero_le _
  size k := by rw [hs.issues.length_eq, State.issueStage_cfg]; exact hs.size k
  room k := by
    show s.issueStage.taken k ≤ _
    rw [hs.issues.taken_eq, State.issueStage_cfg]
    exact hs.room k

/-- Decode takes a record that needs a unit only where a station is left for it (R90). -/
theorem Decodes.latchReserved {n : Nat} {s t : State} {taken : List FetchRec} (h : Decodes n s taken t)
    (hs : LatchReserved s) (hwidth : s.dl.length + n ≤ s.cfg.issueWidth) : LatchReserved t := by
  induction h with
  | full | empty => exact hs
  | stall _ hstall =>
    cases hstall <;> exact hs.untouched rfl
  | @take n s t f rest taken hfb room _ ih =>
    have hcfg : (State.allocate { s with fb := s.fb.tail } f).cfg = s.cfg := State.allocate_cfg ..
    have hlen : (State.allocate { s with fb := s.fb.tail } f).dl.length = s.dl.length + 1 := by
      obtain ⟨d, hd, -⟩ := State.allocate_dl { s with fb := s.fb.tail } f
      rw [hd, List.length_append, List.length_singleton]
    refine ih ⟨by rw [hlen, hcfg]; omega, fun k => ?_, fun k => ?_⟩ (by rw [hlen, hcfg]; omega)
    · rw [State.allocate_rs, hcfg]
      exact hs.size k
    · show State.taken _ k ≤ _
      rw [State.taken_allocate, hcfg]
      split
      · rename_i hk
        obtain ⟨r, hr, hop⟩ := bodyClass_eq_some_iff.1 hk
        exact room.station r k hr hop
      · exact hs.room k

theorem LatchReserved.decodeStage {s : State} (hs : LatchReserved s) : LatchReserved s.decodeStage := by
  by_cases hdl : s.dl = []
  · obtain ⟨taken, h⟩ := State.decodeStage_decodes hdl
    exact h.latchReserved hs (by simp [hdl])
  · rw [State.decodeStage, if_neg (by simpa using hdl)]
    exact hs

theorem keptByParts_latchReserved : KeptByParts LatchReserved where
  ends h hs := hs.untouched (by rw [h.sameEngine.cfg, h.sameEngine.dl, h.sameEngine.rs])
  commit := State.commitStage_keeps (fun _ _ _ _ hs => hs.untouched (by simp))
    (fun _ _ e _ hs => (hs.untouched (by simp)).squashAfter e) (fun _ _ hs => hs.untouched rfl)
  memory _ hs := hs.untouched (by simp)
  execute := State.executeStage_keeps (fun _ hs => hs.selectStage) (fun _ _ _ hs => hs.untouched (by simp))
    (fun _ _ hs => hs.untouched rfl) (fun _ r hs => hs.broadcastOne r)
  issue _ hs := hs.issueStage
  decode _ hs := hs.decodeStage
  fetch _ hs := hs.untouched (by simp)
  clock _ _ _ hs := hs.untouched rfl

/-! ### The obligation -/

/-- What an operand captures from a producer's ROB entry, or from the register if it is no longer there (R96). -/
theorem State.capture_tag (s : State) (p q : Nat) (i : Reg) :
    s.capture (.tag p q i) =
      if (s.robAt p).valid = true ∧ (s.robAt p).seq = q then
        if (s.robAt p).completed = true ∧ (s.robAt p).exception = none then ⟨true, (s.robAt p).value, 0⟩
        else ⟨false, 0, p⟩
      else ⟨true, s.reg i, 0⟩ := rfl

/-- Settles O29: the step lemma, the issue loop, and what an operand captures. -/
theorem latchAlwaysEmptied : Obligations.LatchAlwaysEmptied := by
  refine ⟨fun s hs => ?_, fun s i p q => ?_⟩
  · have h := hs.issues
    refine ⟨h.dl_eq_nil, fun u hstep => keptByParts_latchReserved.step hstep hs, ?_, ?_,
      fun k j e he hvalid => h.occupied he hvalid⟩
    · intro d r k hd hbody hclass
      obtain ⟨j, old, hold, hvalid, hnew⟩ := h.placed hd hbody hclass
      exact ⟨j, old, _, hold, hvalid, hnew, rfl, rfl, rfl, rfl, rfl, rfl, rfl, rfl, rfl, rfl, rfl⟩
    · intro d r k j old hd hbody hclass hold hvalid hbefore
      have hfree : freeStation (s.rs.get k) = some j :=
        firstIdx_eq_some hold (by simp [hvalid]) fun x hx => by simp [hbefore x hx]
      exact ⟨_, h.first hd hbody hclass hfree, rfl, rfl, rfl⟩
  · dsimp only
    rw [State.capture_tag]
    refine ⟨⟨rfl, rfl⟩, ⟨rfl, rfl⟩, fun hvalid hseq hdone hexc => ?_, fun hvalid hseq hwait => ?_, fun hgone => ?_⟩
    · rw [if_pos ⟨hvalid, hseq⟩, if_pos ⟨hdone, hexc⟩]
      exact ⟨rfl, rfl⟩
    · rw [if_pos ⟨hvalid, hseq⟩, if_neg]
      rintro ⟨hdone, hexc⟩
      rcases hwait with hwait | hwait
      · rw [hdone] at hwait
        cases hwait
      · exact hwait hexc
    · rw [if_neg]
      · exact ⟨rfl, rfl⟩
      · rintro ⟨hvalid, hseq⟩
        rcases hgone with hgone | hgone
        · rw [hvalid] at hgone
          cases hgone
        · exact hgone hseq

end Sys2Proof.Machine
end

section
/-!
SUPPORT. The sequential run of R98 as a sequence of states, and what an entry of the reorder buffer says of one of its steps:
the helper definitions of the simulation of R99.
-/

namespace Sys2Proof.Machine

/-! ### The sequential run -/

/-- The states of a sequential run, one after the other. `T` goes on after the end of the run: `sequentialStep` does not read
the outcome. -/
structure SeqTrace (T : Nat → State) : Prop where
  next : ∀ n, sequentialStep (T n) = .next (T (n + 1))
  cfg : ∀ n, (T n).cfg = (T 0).cfg
  imem : ∀ n, (T n).imem = (T 0).imem
  canonical : ∀ n, memWf (T n).mem = true

/-- The state after a sequential step (R98). -/
def State.sequentialNext (s : State) : State :=
  match sequentialStep s with
  | .next t => t
  | .fault _ | .refused _ => s

theorem State.sequentialStep_eq (s : State) : sequentialStep s = .next s.sequentialNext := by
  obtain ⟨t, ht, -⟩ := sequentialStep_ends s
  rw [State.sequentialNext, ht]

/-- Every state whose memory is canonical starts a sequential run. -/
theorem SeqTrace.exists_of (s : State) (h : memWf s.mem = true) : ∃ T, SeqTrace T ∧ T 0 = s := by
  have next : ∀ n, sequentialStep (State.sequentialNext^[n] s) = .next (State.sequentialNext^[n + 1] s) := fun n => by
    rw [Function.iterate_succ_apply', State.sequentialStep_eq]
  have ends := fun n => sequentialStep_next_ends (next n)
  refine ⟨fun n => State.sequentialNext^[n] s, ⟨next, fun n => ?_, fun n => ?_, fun n => ?_⟩, rfl⟩
  · induction n with
    | zero => rfl
    | succ n ih => exact (ends n).fixed.1.trans ih
  · induction n with
    | zero => rfl
    | succ n ih => exact (ends n).fixed.2.1.trans ih
  · induction n with
    | zero => exact h
    | succ n ih => exact (ends n).memWf ih

variable {T : Nat → State}

theorem SeqTrace.instrAt (hT : SeqTrace T) (n : Nat) (p : Word) : (T n).instrAt p = (T 0).instrAt p :=
  State.instrAt_congr (hT.cfg n) (hT.imem n) p

/-- Where `arch_pc` names an instruction, the next state is its meaning. -/
theorem SeqTrace.exec (hT : SeqTrace T) {n : Nat} {i : Instr} (h : (T 0).instrAt (T n).archPc = some i) :
    exec i (T n) = .next (T (n + 1)) := by
  rw [← hT.next, sequentialStep_of_instrAt ((hT.instrAt n _).trans h)]

theorem SeqTrace.fetchFault (hT : SeqTrace T) {n : Nat} (h : (T 0).instrAt (T n).archPc = none) :
    T (n + 1) = (T n).raiseSequential .fetchFault (T n).archPc :=
  Host.Outcome.next.inj ((hT.next n).symm.trans (sequentialStep_of_no_instr ((hT.instrAt n _).trans h)))

/-! ### What one instruction does to the architectural state -/

/-- A format that writes no register has `rd = 0` (R74). -/
theorem record_rd_of_not_writesRd {i : Instr} (h : ¬ writesRd i.record.op = true) : i.record.rd = 0 := by
  cases i <;> simp [Instr.record, writesRd] at h ⊢

theorem destination_record (i : Instr) :
    destination i.record = if i.record.rd = 0 then none else some i.record.rd := by
  rw [destination_eq]
  by_cases hrd : i.record.rd = 0
  · rw [if_pos hrd, if_neg fun h => h.2 hrd]
  · rw [if_neg hrd, if_pos ⟨not_not.1 fun h => hrd (record_rd_of_not_writesRd h), hrd⟩]

theorem destination_record_eq_some_iff {i : Instr} {r : Reg} :
    destination i.record = some r ↔ r = i.record.rd ∧ i.record.rd ≠ 0 := by
  rw [destination_record]
  split <;> simp_all [eq_comm]

theorem destination_ne_zero {r : InstrRecord} {d : Reg} (h : destination r = some d) : d ≠ 0 := by
  rw [destination_eq] at h
  split at h
  · rename_i hw
    exact (Option.some.inj h) ▸ hw.2
  · cases h

theorem eq_lw_of_op {i : Instr} (h : i.record.op = .lw) : ∃ rd rs1 imm, i = .lw rd rs1 imm := by
  cases i with
  | lw rd rs1 imm => exact ⟨rd, rs1, imm, rfl⟩
  | _ => cases h

theorem eq_sw_of_op {i : Instr} (h : i.record.op = .sw) : ∃ rs1 rs2 imm, i = .sw rs1 rs2 imm := by
  cases i with
  | sw rs1 rs2 imm => exact ⟨rs1, rs2, imm, rfl⟩
  | _ => cases h

/-- An instruction is of class ALU, a load, a store, or one that decode completes (R77, R91). -/
theorem instr_kinds (i : Instr) :
    opClass i.record.op = some .alu ∨ i.record.op = .lw ∨ i.record.op = .sw ∨ i = .nop ∨ i = .syscall ∨ i = .halt := by
  cases i <;> simp [Instr.record, opClass]

theorem instr_of_completesAtDecode {i : Instr} (h : completesAtDecode i.record.op = true) :
    i = .nop ∨ i = .syscall ∨ i = .halt := by
  cases i <;> simp [Instr.record, completesAtDecode] at h ⊢

/-- The effective address of the access that `i` makes in state `a` (R165). -/
def State.accessAddr (a : State) (i : Instr) : Word := effectiveAddress (a.reg i.record.rs1) i.record.imm

theorem exec_lw_eq {i : Instr} (h : i.record.op = .lw) (a : State) :
    exec i a = .next (match addressFault a.cfg.memSize (a.accessAddr i) with
      | some c => a.raiseSequential c (a.accessAddr i)
      | none => a.retireSequential i.record.rd (a.readWord (a.accessAddr i)) (nextSequential a.archPc)) := by
  obtain ⟨rd, rs1, imm, rfl⟩ := eq_lw_of_op h
  show execLw rd rs1 imm a = _
  unfold execLw State.accessAddr Instr.record
  cases addressFault a.cfg.memSize (effectiveAddress (a.reg rs1) imm) <;> rfl

theorem exec_sw_eq {i : Instr} (h : i.record.op = .sw) (a : State) :
    exec i a = .next (match addressFault a.cfg.memSize (a.accessAddr i) with
      | some c => a.raiseSequential c (a.accessAddr i)
      | none =>
        (a.writeWord (a.accessAddr i) (a.reg i.record.rs2)).retireSequential 0 0 (nextSequential a.archPc)) := by
  obtain ⟨rs1, rs2, imm, rfl⟩ := eq_sw_of_op h
  show execSw rs1 rs2 imm a = _
  unfold execSw State.accessAddr Instr.record
  cases addressFault a.cfg.memSize (effectiveAddress (a.reg rs1) imm) <;> rfl

/-- The result a unit of class ALU computes for `i` in state `a` (R118). -/
def State.aluResult (a : State) (i : Instr) : ExecResult :=
  unitResult a.cfg.overflowTraps i.record.op (a.reg i.record.rs1) (a.reg i.record.rs2) i.record.imm a.archPc

theorem exec_alu_eq {i : Instr} (h : opClass i.record.op = some .alu) (a : State) :
    exec i a = .next (match (a.aluResult i).exception with
      | some c => a.raiseSequential c (a.aluResult i).excAddr
      | none => a.retireSequential i.record.rd (a.aluResult i).value (a.aluResult i).nextPc) := by
  rw [exec_of_alu a h, State.finishSequential_eq]
  rfl

/-- An instruction writes its destination, and no other register (R98). -/
theorem reg_of_exec {i : Instr} {a b : State} {r : Reg} (h : exec i a = .next b) (hr : destination i.record ≠ some r) :
    b.reg r = a.reg r := by
  have retire : ∀ (s : State) v next, (s.retireSequential i.record.rd v next).reg r = s.reg r := fun s v next => by
    rw [State.reg_retireSequential, if_neg fun c => hr (destination_record_eq_some_iff.2 c)]
  have plain : ∀ (s : State) v next, (s.retireSequential 0 v next).reg r = s.reg r := fun s v next => by
    rw [State.reg_retireSequential, if_neg fun c => c.2 rfl]
  rcases instr_kinds i with hk | hk | hk | rfl | rfl | rfl
  · rw [exec_alu_eq hk] at h
    obtain rfl := Host.Outcome.next.inj h
    split
    · rfl
    · exact retire ..
  · rw [exec_lw_eq hk] at h
    obtain rfl := Host.Outcome.next.inj h
    split
    · rfl
    · exact retire ..
  · rw [exec_sw_eq hk] at h
    obtain rfl := Host.Outcome.next.inj h
    split
    · rfl
    · exact plain ..
  · obtain rfl := Host.Outcome.next.inj h
    exact plain ..
  · simp only [Sys2Proof.Machine.exec, execSyscall] at h
    split at h <;> obtain rfl := Host.Outcome.next.inj h
    · exact plain a 0 (nextSequential a.archPc)
    · rfl
  · obtain rfl := Host.Outcome.next.inj h
    exact plain a 0 (nextSequential a.archPc)

/-- Only a store writes memory (R98). -/
theorem mem_of_exec {i : Instr} {a b : State} (h : exec i a = .next b) (hi : i.record.op ≠ .sw) : b.mem = a.mem := by
  rcases instr_kinds i with hk | hk | hk | rfl | rfl | rfl
  · rw [exec_alu_eq hk] at h
    obtain rfl := Host.Outcome.next.inj h
    split <;> simp [State.raiseSequential]
  · rw [exec_lw_eq hk] at h
    obtain rfl := Host.Outcome.next.inj h
    split <;> simp [State.raiseSequential]
  · exact absurd hk hi
  · obtain rfl := Host.Outcome.next.inj h
    simp
  · simp only [Sys2Proof.Machine.exec, execSyscall] at h
    split at h <;> obtain rfl := Host.Outcome.next.inj h <;> simp [State.raiseSequential]
  · obtain rfl := Host.Outcome.next.inj h
    simp

/-- What a store that does not raise makes of memory (R167). -/
theorem mem_of_exec_sw {i : Instr} {a b : State} (h : exec i a = .next b) (hi : i.record.op = .sw) :
    b.mem = match addressFault a.cfg.memSize (a.accessAddr i) with
      | some _ => a.mem
      | none => memWriteWord a.cfg.byteOrder a.mem (a.accessAddr i).toNat (a.reg i.record.rs2) := by
  rw [exec_sw_eq hi] at h
  obtain rfl := Host.Outcome.next.inj h
  split <;> simp [State.raiseSequential]

/-! ### What a ROB entry says of a step of the run -/

/-- The entry is the one allocated for the instruction `i`, as far as execution leaves it alone (R91). -/
structure RobEntry.For (e : RobEntry) (i : Instr) : Prop where
  op : e.op = some i.record.op
  dest : e.dest = destination i.record
  isStore : e.isStore = (i.record.op == .sw)
  hasLsq : e.hasLsq = isMemory i.record.op

/-- Committing `e` makes of the architectural state of `a` that of `b` (R143, R146). -/
structure Retired (a b : State) (e : RobEntry) : Prop where
  pc : b.archPc = e.actualNextPc
  regs : ∀ r, b.reg r = if e.dest = some r ∧ r ≠ 0 then e.value else a.reg r
  mem : b.mem = if e.isStore then memWriteWord a.cfg.byteOrder a.mem e.stAddr.toNat e.stValue else a.mem
  outcome : b.outcome = if e.halts then .halted else a.outcome

/-- What a completed entry says of the step from `a` to `b`: the exception it carries is the one raised, or its commit makes
`b` of `a`. -/
def Settled (a b : State) (e : RobEntry) : Prop :=
  match e.exception with
  | some c => b = a.raiseSequential c e.excAddr
  | none => Retired a b e

theorem Settled.of_exception {a b : State} {e : RobEntry} {c : Cause} (hc : e.exception = some c)
    (h : b = a.raiseSequential c e.excAddr) : Settled a b e := by
  unfold Settled
  rw [hc]
  exact h

theorem Settled.of_retired {a b : State} {e : RobEntry} (hc : e.exception = none) (h : Retired a b e) :
    Settled a b e := by
  unfold Settled
  rw [hc]
  exact h

theorem Settled.raised {a b : State} {e : RobEntry} {c : Cause} (h : Settled a b e) (hc : e.exception = some c) :
    b = a.raiseSequential c e.excAddr := by
  unfold Settled at h
  rw [hc] at h
  exact h

theorem Settled.retired {a b : State} {e : RobEntry} (h : Settled a b e) (hc : e.exception = none) :
    Retired a b e := by
  unfold Settled at h
  rw [hc] at h
  exact h

theorem RobEntry.For.halts_eq_false {e : RobEntry} {i : Instr} (h : e.For i) (hk : opClass i.record.op ≠ none) :
    e.halts = false := by
  rw [RobEntry.halts, h.op]
  cases hop : i.record.op <;> simp_all [opClass]

/-- A step that writes a register at most is the commit of an entry with the value and the next pc of that step. -/
theorem Retired.of_retireSequential {a : State} {e : RobEntry} {i : Instr} {v next : Word} (he : e.For i)
    (hstore : i.record.op ≠ .sw) (hk : opClass i.record.op ≠ none) (hvalue : e.value = v)
    (hnext : e.actualNextPc = next) : Retired a (a.retireSequential i.record.rd v next) e where
  pc := hnext.symm
  regs r := by
    rw [State.reg_retireSequential, he.dest, hvalue]
    refine if_congr ?_ rfl rfl
    rw [destination_record_eq_some_iff]
    exact ⟨fun h => ⟨h, h.1 ▸ h.2⟩, fun h => h.1⟩
  mem := by simp [he.isStore, hstore]
  outcome := by simp [he.halts_eq_false hk]

theorem opClass_alu_ne_sw {op : Opcode} (h : opClass op = some .alu) : op ≠ .sw := by
  rintro rfl
  cases h

/-- An instruction of class ALU is settled by the result its unit computes (R118, R120). -/
theorem settled_of_alu {a b : State} {e : RobEntry} {i : Instr} (h : exec i a = .next b)
    (hk : opClass i.record.op = some .alu) (he : e.For i) (hexc : e.exception = (a.aluResult i).exception)
    (haddr : ∀ c, (a.aluResult i).exception = some c → e.excAddr = (a.aluResult i).excAddr)
    (hval : (a.aluResult i).exception = none →
      e.value = (a.aluResult i).value ∧ e.actualNextPc = (a.aluResult i).nextPc) : Settled a b e := by
  rw [exec_alu_eq hk] at h
  obtain rfl := Host.Outcome.next.inj h
  cases hr : (a.aluResult i).exception with
  | some c =>
    refine .of_exception (hexc.trans hr) ?_
    rw [haddr c hr]
  | none =>
    obtain ⟨hvalue, hnext⟩ := hval hr
    exact .of_retired (hexc.trans hr) (.of_retireSequential he (opClass_alu_ne_sw hk) (by simp [hk]) hvalue hnext)

/-- A load that does not raise is settled by the word it reads (R166). -/
theorem settled_of_lw {a b : State} {e : RobEntry} {i : Instr} (h : exec i a = .next b) (hi : i.record.op = .lw)
    (he : e.For i) (hfault : addressFault a.cfg.memSize (a.accessAddr i) = none) (hexc : e.exception = none)
    (hvalue : e.value = a.readWord (a.accessAddr i)) (hnext : e.actualNextPc = nextSequential a.archPc) :
    Settled a b e := by
  rw [exec_lw_eq hi, hfault] at h
  obtain rfl := Host.Outcome.next.inj h
  exact .of_retired hexc (.of_retireSequential he (by simp [hi]) (by simp [hi, opClass]) hvalue hnext)

/-- A load or a store that raises is settled by its cause and address (R128, R165). -/
theorem settled_of_fault {a b : State} {e : RobEntry} {i : Instr} {c : Cause} (h : exec i a = .next b)
    (hi : i.record.op = .lw ∨ i.record.op = .sw) (hfault : addressFault a.cfg.memSize (a.accessAddr i) = some c)
    (hexc : e.exception = some c) (haddr : e.excAddr = a.accessAddr i) : Settled a b e := by
  refine .of_exception hexc ?_
  rw [haddr]
  rcases hi with hi | hi
  · rw [exec_lw_eq hi, hfault] at h
    exact (Host.Outcome.next.inj h).symm
  · rw [exec_sw_eq hi, hfault] at h
    exact (Host.Outcome.next.inj h).symm

/-- A store that does not raise is settled by its address and data (R167). -/
theorem settled_of_sw {a b : State} {e : RobEntry} {i : Instr} (h : exec i a = .next b) (hi : i.record.op = .sw)
    (he : e.For i) (hfault : addressFault a.cfg.memSize (a.accessAddr i) = none) (hexc : e.exception = none)
    (haddr : e.stAddr = a.accessAddr i) (hdata : e.stValue = a.reg i.record.rs2)
    (hnext : e.actualNextPc = nextSequential a.archPc) : Settled a b e := by
  rw [exec_sw_eq hi, hfault] at h
  obtain rfl := Host.Outcome.next.inj h
  have hdest : e.dest = none := by rw [he.dest, destination, hi]; rfl
  refine .of_retired hexc ⟨hnext.symm, fun r => ?_, ?_, ?_⟩
  · rw [State.reg_retireSequential, if_neg fun c => c.2 rfl, hdest, if_neg fun c => nomatch c.1]
    rfl
  · simp [he.isStore, hi, haddr, hdata]
  · simp [he.halts_eq_false (by simp [hi, opClass])]

/-- `nop`, `halt` and an exiting `syscall` are settled by their next pc (R179 to R181). -/
theorem settled_of_decode {a b : State} {e : RobEntry} {i : Instr} (h : exec i a = .next b)
    (hi : completesAtDecode i.record.op = true) (he : e.For i) (hexc : e.exception = none)
    (hnext : e.actualNextPc = nextSequential a.archPc) (hexit : e.op = some .syscall → a.reg 2 = 10) :
    Settled a b e := by
  have plain : ∀ t : State, destination i.record = none → (i.record.op == .sw) = false →
      t.archPc = nextSequential a.archPc → (∀ r, t.reg r = a.reg r) → t.mem = a.mem →
      t.outcome = (if e.halts then .halted else a.outcome) → Settled a t e := by
    intro t hdest hstore hpc hregs hmem hout
    refine .of_retired hexc ⟨hpc.trans hnext.symm, fun r => ?_, ?_, hout⟩
    · rw [hregs, he.dest, hdest, if_neg fun c => nomatch c.1]
    · rw [hmem, he.isStore, hstore, if_neg Bool.false_ne_true]
  have keep : ∀ r, (a.retireSequential 0 0 (nextSequential a.archPc)).reg r = a.reg r := fun r => by
    rw [State.reg_retireSequential, if_neg fun c => c.2 rfl]
  have hop := he.op
  rcases instr_of_completesAtDecode hi with rfl | rfl | rfl
  · obtain rfl := Host.Outcome.next.inj h
    exact plain _ rfl rfl rfl keep (by simp) (by simp [RobEntry.halts, hop, Instr.record])
  · have hexit : exitRequested (a.reg 2) = true := by
      rw [exitRequested_eq, decide_eq_true_eq]
      exact hexit hop
    rw [Sys2Proof.Machine.exec, execSyscall, if_pos hexit] at h
    obtain rfl := Host.Outcome.next.inj h
    exact plain _ rfl rfl rfl keep (by simp) (by simp [RobEntry.halts, hop, Instr.record])
  · obtain rfl := Host.Outcome.next.inj h
    exact plain _ rfl rfl rfl keep (by simp) (by simp [RobEntry.halts, hop, Instr.record])

end Sys2Proof.Machine
end

section
/-!
SUPPORT. The window of instructions in flight, as the simulation of R99 reads it: the number each ROB slot's instruction has
in the sequential run, which of them are on the path that run takes, and who writes a register last.
-/

namespace Sys2Proof.Machine

/-! ### The window -/

/-- The ring of the reorder buffer, with the number of instructions committed before its head. -/
structure Window where
  cap : Nat
  head : Nat
  count : Nat
  base : Nat
  rob : List RobEntry

/-- The window of a state. -/
def State.window (s : State) : Window where
  cap := s.cfg.robCap
  head := s.robHead
  count := s.robCount
  base := s.metrics.instructionsCommitted
  rob := s.rob

namespace Window

/-- ROB slot `t`. -/
def slot (v : Window) (t : Nat) : RobEntry := entryAt RobEntry.empty v.rob t

/-- The number in the sequential run of the instruction in slot `t`. -/
def num (v : Window) (t : Nat) : Nat := v.base + (t + v.cap - v.head) % v.cap

/-- The number of the next instruction to be decoded. -/
def next (v : Window) : Nat := v.base + v.count

/-- The slot the next allocation takes. -/
def tail (v : Window) : Nat := (v.head + v.count) % v.cap

/-- The window is a ring (R32). -/
structure Ring (v : Window) : Prop where
  size : v.rob.length = v.cap
  head : v.head < v.cap
  count : v.count ≤ v.cap
  valid : ∀ t, t < v.cap → ((v.slot t).valid = true ↔ v.num t < v.next)

theorem ring_of_robRing {s : State} (h : RobRing s) : s.window.Ring where
  size := h.size
  head := h.head
  count := h.count
  valid t ht := (h.valid t ht).trans (Nat.add_lt_add_iff_left (k := s.metrics.instructionsCommitted)).symm

variable {T : Nat → State} {v v' : Window}

theorem base_le_num (v : Window) (t : Nat) : v.base ≤ v.num t := Nat.le_add_right ..

theorem Ring.lt_cap (h : v.Ring) {t : Nat} (ht : (v.slot t).valid = true) : t < v.cap := by
  by_contra hge
  rw [slot, entryAt_eq_getD, List.getD_eq_default _ _ (by rw [h.size]; omega)] at ht
  cases ht

theorem Ring.num_lt (h : v.Ring) {t : Nat} (ht : (v.slot t).valid = true) : v.num t < v.next :=
  (h.valid t (h.lt_cap ht)).1 ht

theorem Ring.num_eq (h : v.Ring) {t : Nat} (ht : t < v.cap) :
    v.num t = v.base + if v.head ≤ t then t - v.head else t + v.cap - v.head := by
  rw [num, ring_offset ht h.head]

theorem Ring.num_head (h : v.Ring) : v.num v.head = v.base := by
  rw [h.num_eq h.head, if_pos (le_refl _), Nat.sub_self, Nat.add_zero]

theorem Ring.num_inj (h : v.Ring) {t t' : Nat} (ht : t < v.cap) (ht' : t' < v.cap) (heq : v.num t = v.num t') :
    t = t' := by
  have hlt := h.head
  rw [h.num_eq ht, h.num_eq ht'] at heq
  split at heq <;> split at heq <;> omega

/-- Every number of the window is that of a valid slot. -/
theorem Ring.exists_slot (h : v.Ring) {n : Nat} (hlo : v.base ≤ n) (hhi : n < v.next) :
    ∃ t, (v.slot t).valid = true ∧ v.num t = n := by
  have hlt := h.head
  have hcount := h.count
  unfold next at hhi
  have hfwd := ring_forward (n := n - v.base) hlt (by omega)
  have ht : (v.head + (n - v.base)) % v.cap < v.cap := Nat.mod_lt _ (by omega)
  have hnum : v.num ((v.head + (n - v.base)) % v.cap) = n := by
    rw [h.num_eq ht]
    split at hfwd <;> split <;> omega
  refine ⟨_, (h.valid _ ht).2 ?_, hnum⟩
  rw [hnum]
  exact hhi

theorem Ring.tail_lt (h : v.Ring) : v.tail < v.cap := Nat.mod_lt _ (by have := h.head; omega)

theorem Ring.num_tail (h : v.Ring) (hroom : v.count < v.cap) : v.num v.tail = v.next := by
  have hlt := h.head
  have hfwd : v.tail = _ := ring_forward hlt (by omega)
  rw [h.num_eq h.tail_lt, next]
  split at hfwd <;> split <;> omega

theorem Ring.tail_invalid (h : v.Ring) (hroom : v.count < v.cap) : (v.slot v.tail).valid = false := by
  rw [← Bool.not_eq_true, h.valid _ h.tail_lt, h.num_tail hroom]
  exact lt_irrefl _

/-! ### The path of the sequential run, and the writers of a register -/

/-- The instructions before number `n` are those the sequential run executes: fetch followed the next pc of each. -/
def OnPath (T : Nat → State) (v : Window) (n : Nat) : Prop :=
  ∀ t, (v.slot t).valid = true → v.num t < n → (v.slot t).fetchedNextPc = (T (v.num t + 1)).archPc

/-- No instruction in flight before number `n` writes register `r`. -/
def NoWriter (v : Window) (n : Nat) (r : Reg) : Prop :=
  ∀ t, (v.slot t).valid = true → v.num t < n → (v.slot t).dest ≠ some r

/-- Slot `p` holds the last instruction in flight before number `n` that writes register `r`. -/
structure LastWriter (v : Window) (n : Nat) (r : Reg) (p : Nat) : Prop where
  valid : (v.slot p).valid = true
  before : v.num p < n
  dest : (v.slot p).dest = some r
  last : ∀ t, (v.slot t).valid = true → v.num p < v.num t → v.num t < n → (v.slot t).dest ≠ some r

theorem onPath_base (T : Nat → State) (v : Window) : OnPath T v v.base :=
  fun t _ h => absurd (v.base_le_num t) (Nat.not_le.2 h)

theorem OnPath.mono {n n' : Nat} (h : OnPath T v n') (hn : n ≤ n') : OnPath T v n :=
  fun t ht hlt => h t ht (lt_of_lt_of_le hlt hn)

/-! ### Windows of the same shape -/

/-- The windows differ in what execution writes alone. -/
structure SameShape (v v' : Window) : Prop where
  cap : v'.cap = v.cap
  head : v'.head = v.head
  count : v'.count = v.count
  base : v'.base = v.base
  slot : ∀ t, (v.slot t).SameShape (v'.slot t)

theorem SameShape.refl (v : Window) : SameShape v v :=
  ⟨rfl, rfl, rfl, rfl, fun _ => ⟨rfl, rfl, rfl, rfl, rfl, rfl, rfl, rfl⟩⟩

theorem SameShape.trans {v'' : Window} (h : SameShape v v') (h' : SameShape v' v'') : SameShape v v'' where
  cap := h'.cap.trans h.cap
  head := h'.head.trans h.head
  count := h'.count.trans h.count
  base := h'.base.trans h.base
  slot t :=
    { valid := (h'.slot t).valid.trans (h.slot t).valid
      seq := (h'.slot t).seq.trans (h.slot t).seq
      pc := (h'.slot t).pc.trans (h.slot t).pc
      op := (h'.slot t).op.trans (h.slot t).op
      dest := (h'.slot t).dest.trans (h.slot t).dest
      fetchedNextPc := (h'.slot t).fetchedNextPc.trans (h.slot t).fetchedNextPc
      isStore := (h'.slot t).isStore.trans (h.slot t).isStore
      hasLsq := (h'.slot t).hasLsq.trans (h.slot t).hasLsq }

theorem SameShape.num (h : SameShape v v') (t : Nat) : v'.num t = v.num t := by
  rw [Window.num, h.cap, h.head, h.base]
  rfl

theorem SameShape.next (h : SameShape v v') : v'.next = v.next := by
  rw [Window.next, h.base, h.count]
  rfl

theorem SameShape.onPath_iff (h : SameShape v v') {n : Nat} : OnPath T v' n ↔ OnPath T v n := by
  simp only [OnPath, h.num, (h.slot _).valid, (h.slot _).fetchedNextPc]

theorem SameShape.noWriter (h : SameShape v v') {n : Nat} {r : Reg} (hw : NoWriter v n r) : NoWriter v' n r := by
  simpa only [NoWriter, h.num, (h.slot _).valid, (h.slot _).dest] using hw

theorem SameShape.lastWriter (h : SameShape v v') {n : Nat} {r : Reg} {p : Nat} (hw : LastWriter v n r p) :
    LastWriter v' n r p where
  valid := by rw [(h.slot p).valid]; exact hw.valid
  before := by rw [h.num]; exact hw.before
  dest := by rw [(h.slot p).dest]; exact hw.dest
  last t := by
    rw [h.num, h.num, (h.slot t).valid, (h.slot t).dest]
    exact hw.last t

/-! ### A change of the window that keeps some slots -/

/-- The change from `v` to `v'` keeps the slots of `K`: their entries and numbers, and what is known before them of the path
and of the writers. -/
structure Keeps (T : Nat → State) (v v' : Window) (K : Nat → Prop) : Prop where
  num : ∀ t, K t → v'.num t = v.num t
  slot : ∀ t, K t → v'.slot t = v.slot t
  path : ∀ n, n ≤ v.next → OnPath T v' n → OnPath T v n
  none : ∀ n r, n ≤ v.next → NoWriter v n r → NoWriter v' n r
  last : ∀ n r p, n ≤ v.next → K p → LastWriter v n r p → LastWriter v' n r p

/-! ### Commit takes the head -/

/-- The window after its head has been committed (R143). -/
def pop (v : Window) : Window where
  cap := v.cap
  head := (v.head + 1) % v.cap
  count := v.count - 1
  base := v.base + 1
  rob := updateAt (fun x => { x with valid := false }) v.rob v.head

theorem window_commitOne (s : State) (e : RobEntry) :
    (s.commitOne e).window = s.window.pop := by
  simp only [State.window, pop, State.commitOne_cfg, State.commitOne_robHead, State.commitOne_robCount,
    State.commitOne_committed, State.commitOne_rob]

theorem next_pop (hcount : v.count ≠ 0) : v.pop.next = v.next := by
  simp only [next, pop]
  omega

theorem slot_pop_of_ne {t : Nat} (ht : t ≠ v.head) : v.pop.slot t = v.slot t := by
  simp only [slot, pop, entryAt_updateAt]
  rw [if_neg fun c => ht c.1]

theorem Ring.slot_pop_head (h : v.Ring) : (v.pop.slot v.head).valid = false := by
  simp only [slot, pop, entryAt_updateAt]
  rw [if_pos ⟨trivial, by rw [h.size]; exact h.head⟩]

theorem Ring.num_pop (h : v.Ring) {t : Nat} (ht : t < v.cap) (hne : t ≠ v.head) : v.pop.num t = v.num t := by
  have hlt := h.head
  have hfwd := ring_forward (n := 1) hlt (by omega)
  have hhead : (v.head + 1) % v.cap < v.cap := Nat.mod_lt _ (by omega)
  show v.base + 1 + (t + v.cap - (v.head + 1) % v.cap) % v.cap = v.num t
  rw [ring_offset ht hhead, h.num_eq ht]
  split at hfwd <;> split <;> split <;> omega

/-- The valid slots after a commit are those before it, without the head. -/
theorem Ring.of_valid_pop (h : v.Ring) {t : Nat} (ht : (v.pop.slot t).valid = true) :
    t ≠ v.head ∧ (v.slot t).valid = true ∧ v.pop.slot t = v.slot t ∧ v.pop.num t = v.num t := by
  have hne : t ≠ v.head := by
    rintro rfl
    rw [h.slot_pop_head] at ht
    cases ht
  have hslot := slot_pop_of_ne hne
  rw [hslot] at ht
  exact ⟨hne, ht, hslot, h.num_pop (h.lt_cap ht) hne⟩

/-- A commit of a head that fetch followed rightly keeps every slot but the head. -/
theorem Ring.keeps_pop (h : v.Ring) (hpath : (v.slot v.head).fetchedNextPc = (T (v.base + 1)).archPc) :
    Keeps T v v.pop (fun t => (v.slot t).valid = true ∧ t ≠ v.head) where
  num t ht := h.num_pop (h.lt_cap ht.1) ht.2
  slot t ht := slot_pop_of_ne ht.2
  path n _ hp t ht hlt := by
    by_cases hne : t = v.head
    · rw [hne, h.num_head]
      exact hpath
    · have hstep := hp t
      rw [slot_pop_of_ne hne, h.num_pop (h.lt_cap ht) hne] at hstep
      exact hstep ht hlt
  none n r _ hw t ht hlt := by
    obtain ⟨-, hvalid, hslot, hnum⟩ := h.of_valid_pop ht
    rw [hslot]
    exact hw t hvalid (hnum ▸ hlt)
  last n r p _ hp hw :=
    { valid := by rw [slot_pop_of_ne hp.2]; exact hw.valid
      before := by rw [h.num_pop (h.lt_cap hp.1) hp.2]; exact hw.before
      dest := by rw [slot_pop_of_ne hp.2]; exact hw.dest
      last := fun t ht hlo hhi => by
        obtain ⟨-, hvalid, hslot, hnum⟩ := h.of_valid_pop ht
        rw [hslot]
        rw [h.num_pop (h.lt_cap hp.1) hp.2, hnum] at hlo
        exact hw.last t hvalid hlo (hnum ▸ hhi) }

/-- When the last writer of a register is committed, no one in flight writes it. -/
theorem Ring.noWriter_pop (h : v.Ring) {n : Nat} {r : Reg} (hw : LastWriter v n r v.head) : NoWriter v.pop n r := by
  intro t ht hlt
  obtain ⟨hne, hvalid, hslot, hnum⟩ := h.of_valid_pop ht
  rw [hslot]
  refine hw.last t hvalid ?_ (hnum ▸ hlt)
  rw [h.num_head]
  exact lt_of_le_of_ne (v.base_le_num t) fun heq => hne (h.num_inj (h.lt_cap hvalid) h.head (by rw [h.num_head, heq]))

/-! ### Decode appends an entry -/

/-- The window after the entry `e` has been allocated at its tail (R91). -/
def push (v : Window) (e : RobEntry) : Window :=
  { v with count := v.count + 1, rob := updateAt (fun _ => e) v.rob v.tail }

theorem window_allocate {s : State} (h : RobRing s) (f : FetchRec) :
    (s.allocate f).window = s.window.push (newRobEntry f s.seqNext) := by
  have htail : s.robTail = s.window.tail := h.tail
  simp only [State.window, push, State.allocate_cfg, State.allocate_robHead, State.allocate_robCount,
    State.allocate_rob, htail]
  simp [State.allocate]

theorem slot_push_of_ne (e : RobEntry) {t : Nat} (ht : t ≠ v.tail) : (v.push e).slot t = v.slot t := by
  simp only [slot, push, entryAt_updateAt]
  rw [if_neg fun c => ht c.1]

theorem Ring.slot_push_tail (h : v.Ring) (e : RobEntry) : (v.push e).slot v.tail = e := by
  simp only [slot, push, entryAt_updateAt]
  rw [if_pos ⟨trivial, by rw [h.size]; exact h.tail_lt⟩]

theorem Ring.ne_tail (h : v.Ring) (hroom : v.count < v.cap) {t : Nat} (ht : (v.slot t).valid = true) : t ≠ v.tail := by
  rintro rfl
  rw [h.tail_invalid hroom] at ht
  cases ht

/-- A slot that is valid after an allocation is the tail, or was valid before. -/
theorem of_valid_push {e : RobEntry} {t : Nat} (ht : ((v.push e).slot t).valid = true) :
    t = v.tail ∨ t ≠ v.tail ∧ (v.slot t).valid = true ∧ (v.push e).slot t = v.slot t := by
  by_cases hne : t = v.tail
  · exact .inl hne
  · have hslot := slot_push_of_ne e hne
    exact .inr ⟨hne, hslot ▸ ht, hslot⟩

theorem Ring.keeps_push (h : v.Ring) (hroom : v.count < v.cap) (e : RobEntry) :
    Keeps T v (v.push e) (fun t => (v.slot t).valid = true) where
  num _ _ := rfl
  slot t ht := slot_push_of_ne e (h.ne_tail hroom ht)
  path n _ hp t ht hlt := by
    have hstep := hp t
    rw [slot_push_of_ne e (h.ne_tail hroom ht)] at hstep
    exact hstep ht hlt
  none n r hn hw t ht hlt := by
    rcases of_valid_push ht with rfl | ⟨-, hvalid, hslot⟩
    · exact absurd hlt (Nat.not_lt.2 (hn.trans (h.num_tail hroom).ge))
    · rw [hslot]
      exact hw t hvalid hlt
  last n r p hn hp hw :=
    { valid := by rw [slot_push_of_ne e (h.ne_tail hroom hp)]; exact hw.valid
      before := hw.before
      dest := by rw [slot_push_of_ne e (h.ne_tail hroom hp)]; exact hw.dest
      last := fun t ht hlo hhi => by
        rcases of_valid_push ht with rfl | ⟨-, hvalid, hslot⟩
        · exact absurd hhi (Nat.not_lt.2 (hn.trans (h.num_tail hroom).ge))
        · rw [hslot]
          exact hw.last t hvalid hlo hhi }

/-! ### Execution completes an entry -/

/-- The window after the entry of slot `c` has been replaced by `e` (R120, R128). -/
def put (v : Window) (c : Nat) (e : RobEntry) : Window := { v with rob := updateAt (fun _ => e) v.rob c }

theorem slot_put_of_ne (e : RobEntry) {c t : Nat} (ht : t ≠ c) : (v.put c e).slot t = v.slot t := by
  simp only [slot, put, entryAt_updateAt]
  rw [if_neg fun h => ht h.1]

theorem Ring.slot_put_self (h : v.Ring) {c : Nat} (hc : (v.slot c).valid = true) (e : RobEntry) :
    (v.put c e).slot c = e := by
  simp only [slot, put, entryAt_updateAt]
  rw [if_pos ⟨trivial, by rw [h.size]; exact h.lt_cap hc⟩]

theorem Ring.sameShape_put (h : v.Ring) {c : Nat} (hc : (v.slot c).valid = true) {e : RobEntry}
    (he : (v.slot c).SameShape e) : SameShape v (v.put c e) where
  cap := rfl
  head := rfl
  count := rfl
  base := rfl
  slot t := by
    by_cases ht : t = c
    · rw [ht, h.slot_put_self hc]
      exact he
    · rw [slot_put_of_ne e ht]
      exact ⟨rfl, rfl, rfl, rfl, rfl, rfl, rfl, rfl⟩

theorem Ring.put (h : v.Ring) {c : Nat} {e : RobEntry} (hs : SameShape v (v.put c e)) : (v.put c e).Ring where
  size := (length_updateAt ..).trans h.size
  head := h.head
  count := h.count
  valid t ht := by
    rw [(hs.slot t).valid, hs.num, hs.next]
    exact h.valid t ht

theorem SameShape.keeps_put {c : Nat} {e : RobEntry} (h : SameShape v (v.put c e)) :
    Keeps T v (v.put c e) (fun t => t ≠ c) where
  num _ _ := rfl
  slot _ ht := slot_put_of_ne e ht
  path _ _ := h.onPath_iff.1
  none _ _ _ := h.noWriter
  last _ _ _ _ _ := h.lastWriter

end Window

end Sys2Proof.Machine
end

section
/-!
SUPPORT. What the simulation of R99 knows of the entries in the window, and the register values that follow from it.
-/

namespace Sys2Proof.Machine

open Window

variable {T : Nat → State} {v v' : Window}

/-! ### Entries -/

/-- What is known of the entry in slot `t`, the instruction of number `v.num t` of the sequential run `T`: what decode wrote
for the record at its pc, and that it is settled once completed. What it says of the run it says of an entry on the path of
the run; a `syscall` is settled where it exits. -/
structure EntryOk (T : Nat → State) (v : Window) (t : Nat) : Prop where
  pc : OnPath T v (v.num t) → (v.slot t).pc = (T (v.num t)).archPc
  fault : (T 0).instrAt (v.slot t).pc = none →
    (v.slot t).op = none ∧ (v.slot t).dest = none ∧ (v.slot t).hasLsq = false
  instr : ∀ i, (T 0).instrAt (v.slot t).pc = some i → (v.slot t).For i
  decode : ∀ i, (T 0).instrAt (v.slot t).pc = some i → completesAtDecode i.record.op = true →
    (v.slot t).completed = true ∧ (v.slot t).exception = none
  clean : (v.slot t).completed = false → (v.slot t).exception = none
  store : ∀ i, (T 0).instrAt (v.slot t).pc = some i → i.record.op = .sw →
    (v.slot t).actualNextPc = nextSequential (v.slot t).pc
  settled : (v.slot t).completed = true → ((v.slot t).op = some .syscall → (T (v.num t)).reg 2 = 10) →
    OnPath T v (v.num t) → Settled (T (v.num t)) (T (v.num t + 1)) (v.slot t)

/-- What is known of every entry in flight. -/
def Entries (T : Nat → State) (v : Window) : Prop := ∀ t, (v.slot t).valid = true → EntryOk T v t

/-- A change that keeps a slot keeps what is known of it. -/
theorem EntryOk.keep {K : Nat → Prop} {t : Nat} (h : EntryOk T v t) (hk : Keeps T v v' K) (ht : K t)
    (hn : v.num t ≤ v.next) : EntryOk T v' t := by
  have hpath := hk.path (v.num t) hn
  obtain ⟨pc, fault, instr, decode, clean, store, settled⟩ := h
  constructor <;> rw [hk.slot t ht]
  · rw [hk.num t ht]
    exact fun hp => pc (hpath hp)
  · exact fault
  · exact instr
  · exact decode
  · exact clean
  · exact store
  · rw [hk.num t ht]
    exact fun hdone hexit hp => settled hdone hexit (hpath hp)

/-- An entry that writes a register holds an instruction whose destination that is. -/
theorem EntryOk.instr_of_dest {t : Nat} {r : Reg} (h : EntryOk T v t) (hd : (v.slot t).dest = some r) :
    ∃ i, (T 0).instrAt (v.slot t).pc = some i ∧ (v.slot t).For i ∧ destination i.record = some r := by
  cases hi : (T 0).instrAt (v.slot t).pc with
  | none =>
    rw [(h.fault hi).2.1] at hd
    cases hd
  | some i => exact ⟨i, rfl, h.instr i hi, (h.instr i hi).dest ▸ hd⟩

theorem EntryOk.dest_ne_zero {t : Nat} {r : Reg} (h : EntryOk T v t) (hd : (v.slot t).dest = some r) : r ≠ 0 := by
  obtain ⟨i, -, -, hdest⟩ := h.instr_of_dest hd
  exact destination_ne_zero hdest

/-- An instruction on the path is the one the sequential run executes in its turn. -/
theorem EntryOk.exec (hT : SeqTrace T) {t : Nat} {i : Instr} (h : EntryOk T v t)
    (hi : (T 0).instrAt (v.slot t).pc = some i) (hp : OnPath T v (v.num t)) :
    exec i (T (v.num t)) = .next (T (v.num t + 1)) :=
  hT.exec (h.pc hp ▸ hi)

/-! ### Register values along the path -/

/-- A step of the run leaves a register alone that the entry of its number does not write. -/
theorem EntryOk.reg_step (hT : SeqTrace T) {t : Nat} {r : Reg} (h : EntryOk T v t) (hp : OnPath T v (v.num t))
    (hd : (v.slot t).dest ≠ some r) : (T (v.num t + 1)).reg r = (T (v.num t)).reg r := by
  cases hi : (T 0).instrAt (v.slot t).pc with
  | none =>
    rw [hT.fetchFault (h.pc hp ▸ hi)]
    rfl
  | some i => exact reg_of_exec (h.exec hT hi hp) ((h.instr i hi).dest ▸ hd)

/-- A register keeps its value along the path while no entry writes it. -/
theorem Entries.reg_stable (hT : SeqTrace T) (hring : v.Ring) (hv : Entries T v) {m n : Nat} {r : Reg} (hlo : v.base ≤ m)
    (hmn : m ≤ n) (hhi : n ≤ v.next) (hp : OnPath T v n)
    (hw : ∀ t, (v.slot t).valid = true → m ≤ v.num t → v.num t < n → (v.slot t).dest ≠ some r) :
    (T n).reg r = (T m).reg r := by
  induction n, hmn using Nat.le_induction with
  | base => rfl
  | succ n hmn ih =>
    obtain ⟨t, ht, rfl⟩ := hring.exists_slot (hlo.trans hmn) (Nat.lt_of_succ_le hhi)
    have hbefore : OnPath T v (v.num t) := hp.mono (Nat.le_succ _)
    have hstep := (hv t ht).reg_step hT hbefore (hw t ht hmn (Nat.lt_succ_self _))
    exact hstep.trans (ih (Nat.le_of_succ_le hhi) hbefore fun t' ht' hm hlt => hw t' ht' hm (Nat.lt_succ_of_lt hlt))

theorem Entries.reg_of_noWriter (hT : SeqTrace T) (hring : v.Ring) (hv : Entries T v) {n : Nat} {r : Reg}
    (hlo : v.base ≤ n) (hhi : n ≤ v.next) (hp : OnPath T v n) (hw : NoWriter v n r) :
    (T n).reg r = (T v.base).reg r :=
  hv.reg_stable hT hring (le_refl _) hlo hhi hp fun t ht _ hlt => hw t ht hlt

theorem Entries.reg_of_lastWriter (hT : SeqTrace T) (hring : v.Ring) (hv : Entries T v) {n : Nat} {r : Reg} {p : Nat}
    (hhi : n ≤ v.next) (hp : OnPath T v n) (hw : LastWriter v n r p) : (T n).reg r = (T (v.num p + 1)).reg r :=
  hv.reg_stable hT hring (Nat.le_succ_of_le (v.base_le_num p)) hw.before hhi hp fun t ht hlo hlt =>
    hw.last t ht hlo hlt

/-- An entry that writes a register is no `syscall`. -/
theorem EntryOk.op_ne_syscall {t : Nat} {r : Reg} (h : EntryOk T v t) (hd : (v.slot t).dest = some r) :
    (v.slot t).op ≠ some .syscall := by
  obtain ⟨i, -, hfor, hdest⟩ := h.instr_of_dest hd
  rw [hfor.op]
  intro hop
  rw [destination, Option.some.inj hop] at hdest
  cases hdest

/-- A settled entry without an exception holds the value the run gives its destination. -/
theorem Settled.reg_dest {a b : State} {e : RobEntry} {r : Reg} (h : Settled a b e) (hexc : e.exception = none)
    (hd : e.dest = some r) (hr : r ≠ 0) : b.reg r = e.value := by
  rw [(h.retired hexc).regs, if_pos ⟨hd, hr⟩]

/-- The value of the last writer, once completed without an exception, is the register's. -/
theorem Entries.value_of_lastWriter (hT : SeqTrace T) (hring : v.Ring) (hv : Entries T v) {n : Nat} {r : Reg} {p : Nat}
    (hhi : n ≤ v.next) (hp : OnPath T v n) (hw : LastWriter v n r p) (hdone : (v.slot p).completed = true)
    (hexc : (v.slot p).exception = none) : (v.slot p).value = (T n).reg r := by
  have he := hv p hw.valid
  have hs := he.settled hdone (fun hop => absurd hop (he.op_ne_syscall hw.dest)) (hp.mono hw.before.le)
  rw [hv.reg_of_lastWriter hT hring hhi hp hw, hs.reg_dest hexc hw.dest (he.dest_ne_zero hw.dest)]

end Sys2Proof.Machine
end

section
/-!
SUPPORT. What the simulation of R99 knows of the records in flight: in the latch, in stations and units, in results, in the
memory port and in the load/store queue; and that each pending entry is in one of these places.
-/

namespace Sys2Proof.Machine

open Window

/-! ### The records in flight -/

/-- The places of the engine where an instruction is between decode and the completion of its entry. -/
structure Flight where
  dl : List DecRec
  rs : PerClass (List RsEntry)
  fu : PerClass (List FuUnit)
  cdbq : List CdbResult
  mport : MemPort
  lsq : List LsqEntry

/-- The records in flight of a state. -/
def State.flight (s : State) : Flight where
  dl := s.dl
  rs := s.rs
  fu := s.fu
  cdbq := s.cdbq
  mport := s.mport
  lsq := s.lsq

variable {T : Nat → State} {v v' : Window}

/-- Slot `t` holds the instruction `i`. -/
structure Holds (T : Nat → State) (v : Window) (t : Nat) (i : Instr) : Prop where
  valid : (v.slot t).valid = true
  instr : (T 0).instrAt (v.slot t).pc = some i

/-- Slot `t` holds the instruction `i`, whose entry is not completed. -/
structure Pending (T : Nat → State) (v : Window) (t : Nat) (i : Instr) : Prop extends Holds T v t i where
  waiting : (v.slot t).completed = false

/-- An operand slot of the instruction in slot `t`, which reads register `r` (R34, R113): a ready slot holds the value the
sequential run gives the register there, another waits for the register's last writer. -/
structure OperandOk (T : Nat → State) (v : Window) (t : Nat) (r : Reg) (o : Operand) : Prop where
  ready : o.ready = true → OnPath T v (v.num t) → o.value = (T (v.num t)).reg r
  waits : o.ready = false → LastWriter v (v.num t) r o.tag ∧
    ¬ ((v.slot o.tag).completed = true ∧ (v.slot o.tag).exception = none)

/-- A dependency snapshot of the instruction in slot `t`, which reads register `r` (R92): the register file has the value, or
the entry named is the last writer, or that entry has been committed since. -/
def SnapshotOk (v : Window) (t : Nat) (r : Reg) (x : Snapshot) : Prop :=
  match x with
  | .const0 => r = 0
  | .arch i => i = r ∧ NoWriter v (v.num t) r
  | .tag p q i => i = r ∧
    (((v.slot p).valid = true ∧ (v.slot p).seq = q) ∧ LastWriter v (v.num t) r p ∨
      ¬ ((v.slot p).valid = true ∧ (v.slot p).seq = q) ∧ NoWriter v (v.num t) r)

/-- A latched record, if it needs a unit (R40, R92). -/
def LatchOk (T : Nat → State) (v : Window) (d : DecRec) : Prop :=
  ∀ r k, d.fetched.body = some r → opClass r.op = some k →
    ∃ i, Pending T v d.rob i ∧ i.record = r ∧ d.fetched.pc = (v.slot d.rob).pc ∧
      SnapshotOk v d.rob r.rs1 d.src1 ∧ SnapshotOk v d.rob r.rs2 d.src2

/-- An occupied station of class `k` (R34, R95). -/
structure StationOk (T : Nat → State) (v : Window) (k : FuClass) (e : RsEntry) (i : Instr) : Prop where
  pending : Pending T v e.rob i
  cls : opClass i.record.op = some k
  op : e.op = i.record.op
  imm : e.imm = i.record.imm
  pc : e.pc = (v.slot e.rob).pc
  a : OperandOk T v e.rob i.record.rs1 e.a
  b : OperandOk T v e.rob i.record.rs2 e.b

/-- A busy unit of class `k` (R35, R115). -/
structure UnitOk (T : Nat → State) (v : Window) (k : FuClass) (u : FuUnit) (i : Instr) : Prop where
  pending : Pending T v u.rob i
  cls : opClass i.record.op = some k
  op : u.op = i.record.op
  imm : u.imm = i.record.imm
  pc : u.pc = (v.slot u.rob).pc
  operands : OnPath T v (v.num u.rob) →
    u.a = (T (v.num u.rob)).reg i.record.rs1 ∧ u.b = (T (v.num u.rob)).reg i.record.rs2

/-- A result that waits for the bus (R36): its broadcast settles the entry. -/
structure ResultOk (T : Nat → State) (v : Window) (r : CdbResult) (i : Instr) : Prop where
  pending : Pending T v r.rob i
  cls : opClass i.record.op ≠ none
  op : i.record.op ≠ .sw
  settles : OnPath T v (v.num r.rob) →
    Settled (T (v.num r.rob)) (T (v.num r.rob + 1)) ((v.slot r.rob).broadcast r)

/-- The load of a busy port, which raises nothing and holds its word (R38). -/
structure PortOk (T : Nat → State) (v : Window) (m : MemPort) (i : Instr) : Prop where
  pending : Pending T v m.rob i
  op : i.record.op = .lw
  value : OnPath T v (v.num m.rob) →
    addressFault (T (v.num m.rob)).cfg.memSize ((T (v.num m.rob)).accessAddr i) = none ∧
      m.value = (T (v.num m.rob)).readWord ((T (v.num m.rob)).accessAddr i)

/-- Is the entry a load that has its address and has not started (R37)? -/
def LsqEntry.startable (l : LsqEntry) : Bool := l.kind == .load && l.lstate == .ready

/-- An entry of the load/store queue (R37, R128): a load that may start has its address, a resolved store has its address,
its fault and its data. -/
structure QueuedOk (T : Nat → State) (v : Window) (l : LsqEntry) (i : Instr) : Prop where
  holds : Holds T v l.rob i
  op : i.record.op = if l.kind = .load then .lw else .sw
  load : l.startable = true → (v.slot l.rob).completed = false ∧ (OnPath T v (v.num l.rob) →
    l.addr = (T (v.num l.rob)).accessAddr i ∧ addressFault (T (v.num l.rob)).cfg.memSize l.addr = none)
  store : l.kind = .store → l.addrOk = true → OnPath T v (v.num l.rob) →
    l.addr = (T (v.num l.rob)).accessAddr i ∧
      l.fault = addressFault (T (v.num l.rob)).cfg.memSize l.addr ∧ l.data = (T (v.num l.rob)).reg i.record.rs2

/-- The load/store queue holds the loads and stores of the window in program order (R126). -/
structure QueueOk (T : Nat → State) (v : Window) (q : List LsqEntry) : Prop where
  sorted : (q.map fun l => v.num l.rob).Pairwise (· < ·)
  entries : ∀ l, l ∈ q → ∃ i, QueuedOk T v l i
  complete : ∀ t, (v.slot t).valid = true → (v.slot t).hasLsq = true → ∃ l, l ∈ q ∧ l.rob = t

/-! ### Each pending entry is in one place -/

/-- How many latched records of slot `t` need a unit. -/
def latchCount (t : Nat) (l : List DecRec) : Nat :=
  l.countP fun d => (bodyClass d.fetched.body).isSome && d.rob == t

/-- How many stations hold slot `t`. -/
def stationCount (t : Nat) (l : List RsEntry) : Nat := l.countP fun e => e.valid && e.rob == t

/-- How many units hold slot `t`. -/
def unitCount (t : Nat) (l : List FuUnit) : Nat := l.countP fun u => u.busy && u.rob == t

/-- How many results are for slot `t`. -/
def resultCount (t : Nat) (l : List CdbResult) : Nat := l.countP fun r => r.rob == t

/-- How many loads of slot `t` the port holds. -/
def portCount (t : Nat) (m : MemPort) : Nat := if m.busy && m.rob == t then 1 else 0

/-- How many loads of slot `t` have their address and have not started. -/
def loadCount (t : Nat) (q : List LsqEntry) : Nat := q.countP fun l => l.startable && l.rob == t

/-- The sum of a count over the classes. -/
def classTotal {α : Type} (f : α → Nat) (p : PerClass α) : Nat := f p.alu + f p.fpu + f p.lsu

theorem classTotal_set {α : Type} (f : α → Nat) (p : PerClass α) (k : FuClass) (x : α) :
    classTotal f (p.set k x) + f (p.get k) = classTotal f p + f x := by
  cases k <;> simp only [classTotal, PerClass.set, PerClass.get] <;> omega

theorem le_classTotal {α : Type} (f : α → Nat) (p : PerClass α) (k : FuClass) : f (p.get k) ≤ classTotal f p := by
  cases k <;> simp only [classTotal, PerClass.get] <;> omega

/-- In how many places the instruction of slot `t` is in flight. -/
def Flight.places (f : Flight) (t : Nat) : Nat :=
  latchCount t f.dl + classTotal (stationCount t) f.rs + classTotal (unitCount t) f.fu + resultCount t f.cdbq +
    portCount t f.mport + loadCount t f.lsq

/-- What is known of the records in flight. -/
structure FlightOk (T : Nat → State) (v : Window) (f : Flight) : Prop where
  latch : ∀ d, d ∈ f.dl → LatchOk T v d
  stations : ∀ k e, e ∈ f.rs.get k → e.valid = true → ∃ i, StationOk T v k e i
  units : ∀ k u, u ∈ f.fu.get k → u.busy = true → ∃ i, UnitOk T v k u i
  results : ∀ r, r ∈ f.cdbq → ∃ i, ResultOk T v r i
  port : f.mport.busy = true → ∃ i, PortOk T v f.mport i
  queue : QueueOk T v f.lsq
  once : ∀ t, f.places t ≤ 1

/-! ### Keeping what is known of a slot -/

section Keep

variable {K : Nat → Prop} {t : Nat} {i : Instr}

theorem Holds.keep (h : Holds T v t i) (hk : Keeps T v v' K) (ht : K t) : Holds T v' t i := by
  obtain ⟨valid, instr⟩ := h
  constructor <;> rw [hk.slot t ht] <;> assumption

theorem Pending.keep (h : Pending T v t i) (hk : Keeps T v v' K) (ht : K t) : Pending T v' t i where
  toHolds := h.toHolds.keep hk ht
  waiting := by rw [hk.slot t ht]; exact h.waiting

/-- An operand slot keeps what is known of it where its slot is kept and, if it waits, the entry it waits for. -/
theorem OperandOk.keep {r : Reg} {o : Operand} (h : OperandOk T v t r o) (hk : Keeps T v v' K) (ht : K t)
    (hn : v.num t ≤ v.next) (htag : o.ready = false → K o.tag) : OperandOk T v' t r o where
  ready hready hp := by
    rw [hk.num t ht] at hp ⊢
    exact h.ready hready (hk.path _ hn hp)
  waits hwait := by
    rw [hk.num t ht, hk.slot _ (htag hwait)]
    exact ⟨hk.last _ _ _ hn (htag hwait) (h.waits hwait).1, (h.waits hwait).2⟩

/-- An operand slot that waits for a slot that is not kept: its entry carries an exception. -/
theorem OperandOk.keep_of_exception {r : Reg} {o : Operand} {c : Nat} (h : OperandOk T v t r o)
    (hk : Keeps T v v' (· ≠ c)) (ht : t ≠ c) (hn : v.num t ≤ v.next)
    (hlast : ∀ n r p, LastWriter v n r p → LastWriter v' n r p)
    (hc : o.ready = false → o.tag = c → (v'.slot c).exception ≠ none) : OperandOk T v' t r o where
  ready hready hp := by
    rw [hk.num t ht] at hp ⊢
    exact h.ready hready (hk.path _ hn hp)
  waits hwait := by
    rw [hk.num t ht]
    refine ⟨hlast _ _ _ (h.waits hwait).1, ?_⟩
    by_cases htag : o.tag = c
    · rw [htag]
      exact fun hdone => hc hwait htag hdone.2
    · rw [hk.slot _ htag]
      exact (h.waits hwait).2

theorem UnitOk.keep {k : FuClass} {u : FuUnit} (h : UnitOk T v k u i) (hk : Keeps T v v' K) (ht : K u.rob)
    (hn : v.num u.rob ≤ v.next) : UnitOk T v' k u i where
  pending := h.pending.keep hk ht
  cls := h.cls
  op := h.op
  imm := h.imm
  pc := by rw [hk.slot _ ht]; exact h.pc
  operands hp := by
    rw [hk.num _ ht] at hp ⊢
    exact h.operands (hk.path _ hn hp)

theorem ResultOk.keep {r : CdbResult} (h : ResultOk T v r i) (hk : Keeps T v v' K) (ht : K r.rob)
    (hn : v.num r.rob ≤ v.next) : ResultOk T v' r i where
  pending := h.pending.keep hk ht
  cls := h.cls
  op := h.op
  settles hp := by
    rw [hk.num _ ht] at hp ⊢
    rw [hk.slot _ ht]
    exact h.settles (hk.path _ hn hp)

theorem PortOk.keep {m : MemPort} (h : PortOk T v m i) (hk : Keeps T v v' K) (ht : K m.rob)
    (hn : v.num m.rob ≤ v.next) : PortOk T v' m i where
  pending := h.pending.keep hk ht
  op := h.op
  value hp := by
    rw [hk.num _ ht] at hp ⊢
    exact h.value (hk.path _ hn hp)

theorem QueuedOk.keep {l : LsqEntry} (h : QueuedOk T v l i) (hk : Keeps T v v' K) (ht : K l.rob)
    (hn : v.num l.rob ≤ v.next) : QueuedOk T v' l i where
  holds := h.holds.keep hk ht
  op := h.op
  load hs := by
    rw [hk.num _ ht, hk.slot _ ht]
    exact ⟨(h.load hs).1, fun hp => (h.load hs).2 (hk.path _ hn hp)⟩
  store hs hok hp := by
    rw [hk.num _ ht] at hp ⊢
    exact h.store hs hok (hk.path _ hn hp)

end Keep

/-! ### A record in flight is counted -/

theorem FlightOk.not_in_flight {f : Flight} {c : Nat} (hc : f.places c = 0) :
    (∀ d, d ∈ f.dl → (bodyClass d.fetched.body).isSome = true → d.rob ≠ c) ∧
    (∀ k e, e ∈ f.rs.get k → e.valid = true → e.rob ≠ c) ∧ (∀ k u, u ∈ f.fu.get k → u.busy = true → u.rob ≠ c) ∧
    (∀ r, r ∈ f.cdbq → r.rob ≠ c) ∧ (f.mport.busy = true → f.mport.rob ≠ c) ∧
    ∀ l, l ∈ f.lsq → l.startable = true → l.rob ≠ c := by
  simp only [Flight.places, Nat.add_eq_zero_iff, and_assoc] at hc
  obtain ⟨hdl, hrs, hfu, hcdbq, hport, hlsq⟩ := hc
  refine ⟨fun d hd hneed heq => ?_, fun k e he hvalid heq => ?_, fun k u hu hbusy heq => ?_, fun r hr heq => ?_,
    fun hbusy heq => ?_, fun l hl hs heq => ?_⟩
  · exact List.countP_eq_zero.1 hdl d hd (by simp [hneed, heq])
  · have hk : stationCount c (f.rs.get k) = 0 := Nat.le_zero.1 (hrs ▸ le_classTotal (stationCount c) f.rs k)
    exact List.countP_eq_zero.1 hk e he (by simp [hvalid, heq])
  · have hk : unitCount c (f.fu.get k) = 0 := Nat.le_zero.1 (hfu ▸ le_classTotal (unitCount c) f.fu k)
    exact List.countP_eq_zero.1 hk u hu (by simp [hbusy, heq])
  · exact List.countP_eq_zero.1 hcdbq r hr (by simp [heq])
  · simp [portCount, hbusy, heq] at hport
  · exact List.countP_eq_zero.1 hlsq l hl (by simp [hs, heq])

/-- An instruction in flight has a pending entry. -/
theorem FlightOk.pending {f : Flight} {c : Nat} (h : FlightOk T v f) (hc : f.places c ≠ 0) :
    ∃ i, Pending T v c i := by
  by_contra hno
  refine hc ?_
  have hdl : latchCount c f.dl = 0 := by
    refine List.countP_eq_zero.2 fun d hd hcount => hno ?_
    obtain ⟨hneed, rfl⟩ : (bodyClass d.fetched.body).isSome = true ∧ d.rob = c := by simpa using hcount
    obtain ⟨k, hk⟩ := Option.isSome_iff_exists.1 hneed
    obtain ⟨r, hr, hop⟩ := bodyClass_eq_some_iff.1 hk
    obtain ⟨i, hp, -⟩ := h.latch d hd r k hr hop
    exact ⟨i, hp⟩
  have hrs : ∀ k, stationCount c (f.rs.get k) = 0 := fun k => by
    refine List.countP_eq_zero.2 fun e he hcount => hno ?_
    obtain ⟨hvalid, rfl⟩ : e.valid = true ∧ e.rob = c := by simpa using hcount
    obtain ⟨i, hs⟩ := h.stations k e he hvalid
    exact ⟨i, hs.pending⟩
  have hfu : ∀ k, unitCount c (f.fu.get k) = 0 := fun k => by
    refine List.countP_eq_zero.2 fun u hu hcount => hno ?_
    obtain ⟨hbusy, rfl⟩ : u.busy = true ∧ u.rob = c := by simpa using hcount
    obtain ⟨i, hs⟩ := h.units k u hu hbusy
    exact ⟨i, hs.pending⟩
  have hcdbq : resultCount c f.cdbq = 0 := by
    refine List.countP_eq_zero.2 fun r hr hcount => hno ?_
    obtain rfl : r.rob = c := by simpa using hcount
    obtain ⟨i, hs⟩ := h.results r hr
    exact ⟨i, hs.pending⟩
  have hport : portCount c f.mport = 0 := by
    refine if_neg fun hcount => hno ?_
    obtain ⟨hbusy, rfl⟩ : f.mport.busy = true ∧ f.mport.rob = c := by simpa using hcount
    obtain ⟨i, hs⟩ := h.port hbusy
    exact ⟨i, hs.pending⟩
  have hlsq : loadCount c f.lsq = 0 := by
    refine List.countP_eq_zero.2 fun l hl hcount => hno ?_
    obtain ⟨hs, rfl⟩ : l.startable = true ∧ l.rob = c := by simpa using hcount
    obtain ⟨i, hq⟩ := h.queue.entries l hl
    exact ⟨i, hq.holds, (hq.load hs).1⟩
  have halu := hrs .alu
  have hfpu := hrs .fpu
  have hlsu := hrs .lsu
  have ualu := hfu .alu
  have ufpu := hfu .fpu
  have ulsu := hfu .lsu
  simp only [PerClass.get] at halu hfpu hlsu ualu ufpu ulsu
  simp only [Flight.places, classTotal, hdl, hcdbq, hport, hlsq, halu, hfpu, hlsu, ualu, ufpu, ulsu]

/-- A free slot is not in flight. -/
theorem FlightOk.places_of_invalid {f : Flight} {c : Nat} (h : FlightOk T v f) (hc : (v.slot c).valid = false) :
    f.places c = 0 := by
  by_contra hne
  obtain ⟨i, hp⟩ := h.pending hne
  rw [hp.valid] at hc
  cases hc

end Sys2Proof.Machine
end

section
/-!
SUPPORT. The word a load reads: what the sequential run has in memory at its turn is what the memory port finds, in the
youngest older store of the same address or in memory (R130 to R135).
-/

namespace Sys2Proof.Machine

open Window

/-! ### The load that starts -/

/-- The oldest eligible load of a queue, in its place (R135). -/
theorem exists_of_oldestEligible {older older' q : List LsqEntry} {l : LsqEntry}
    (h : oldestEligible older q = some (l, older')) :
    ∃ pre post, q = pre ++ l :: post ∧ older' = pre.reverse ++ older ∧ eligible older' l = true := by
  induction q generalizing older with
  | nil => cases h
  | cons x xs ih =>
    rw [oldestEligible] at h
    split at h
    · rename_i hx
      obtain ⟨rfl, rfl⟩ := Prod.mk.inj (Option.some.inj h)
      exact ⟨[], xs, rfl, rfl, hx⟩
    · obtain ⟨pre, post, rfl, rfl, hl⟩ := ih h
      exact ⟨x :: pre, post, rfl, by simp, hl⟩

theorem eligible_iff {older : List LsqEntry} {l : LsqEntry} :
    eligible older l = true ↔ l.startable = true ∧ ∀ e, e ∈ older → blocksLoad l.addr e = false := by
  simp [eligible, LsqEntry.startable, and_assoc]

/-- A store that does not hold a load back has its address, and raises, or is at the load's address, or apart from it. -/
theorem apart_of_blocksLoad {a : Word} {e : LsqEntry} (hstore : e.kind = .store) (h : blocksLoad a e = false) :
    e.addrOk = true ∧ (e.fault = none → e.addr ≠ a → e.addr.toNat + 4 ≤ a.toNat ∨ a.toNat + 4 ≤ e.addr.toNat) := by
  simp only [blocksLoad, hstore, beq_self_eq_true, Bool.true_and, Bool.or_eq_false_iff, Bool.not_eq_false'] at h
  obtain ⟨hok, hover⟩ := h
  refine ⟨hok, fun hfault hne => ?_⟩
  simp [hfault, partialOverlap, hne] at hover
  omega

/-- A word read is the same in memories that agree on its four bytes. -/
theorem memReadWord_congr {o : ByteOrder} {m m' : List Host.Cell} {a : Nat}
    (h : ∀ x, a ≤ x → x < a + 4 → memGet m' x = memGet m x) : memReadWord o m' a = memReadWord o m a := by
  have h0 := h a (le_refl _) (by omega)
  have h1 := h (a + 1) (by omega) (by omega)
  have h2 := h (a + 2) (by omega) (by omega)
  have h3 := h (a + 3) (by omega) (by omega)
  cases o <;> simp only [memReadWord, h0, h1, h2, h3]

variable {T : Nat → State} {v : Window}

/-! ### The queue in program order -/

/-- The queue entry of a store in flight. -/
theorem QueueOk.exists_store {q : List LsqEntry} (hq : QueueOk T v q) (hv : Entries T v) {t : Nat} {i : Instr}
    (ht : (v.slot t).valid = true) (hi : (T 0).instrAt (v.slot t).pc = some i) (hop : i.record.op = .sw) :
    ∃ e, e ∈ q ∧ e.rob = t ∧ e.kind = .store ∧ QueuedOk T v e i := by
  have hlsq : (v.slot t).hasLsq = true := by rw [((hv t ht).instr i hi).hasLsq, hop]; rfl
  obtain ⟨e, he, rfl⟩ := hq.complete t ht hlsq
  obtain ⟨i', hok⟩ := hq.entries e he
  obtain rfl : i' = i := Option.some.inj (hok.holds.instr.symm.trans hi)
  refine ⟨e, he, rfl, ?_, hok⟩
  cases hkind : e.kind with
  | store => rfl
  | load => rw [hok.op, hkind] at hop; cases hop

/-- An older entry of the queue stands before a younger one. -/
theorem QueueOk.mem_pre {pre post : List LsqEntry} {l e : LsqEntry} (hq : QueueOk T v (pre ++ l :: post))
    (he : e ∈ pre ++ l :: post) (hlt : v.num e.rob < v.num l.rob) : e ∈ pre := by
  have hsorted := hq.sorted
  rw [List.map_append, List.map_cons, List.pairwise_append, List.pairwise_cons] at hsorted
  obtain ⟨-, ⟨hpost, -⟩, -⟩ := hsorted
  rcases List.mem_append.1 he with h | h
  · exact h
  · rcases List.mem_cons.1 h with rfl | h
    · exact absurd hlt (lt_irrefl _)
    · exact absurd (hpost _ (List.mem_map_of_mem h)) (Nat.lt_asymm hlt)

theorem QueueOk.num_lt_of_mem_pre {pre post : List LsqEntry} {l e : LsqEntry} (hq : QueueOk T v (pre ++ l :: post))
    (he : e ∈ pre) : v.num e.rob < v.num l.rob := by
  have hsorted := hq.sorted
  rw [List.map_append, List.map_cons, List.pairwise_append] at hsorted
  obtain ⟨-, -, hcross⟩ := hsorted
  exact hcross _ (List.mem_map_of_mem he) _ List.mem_cons_self

/-! ### What a step of the run does to the word -/

/-- Memory after a store on the path of the run whose address is resolved. -/
theorem QueuedOk.mem_step (hT : SeqTrace T) (hv : Entries T v) {e : LsqEntry} {i : Instr} (h : QueuedOk T v e i)
    (hkind : e.kind = .store) (hok : e.addrOk = true) (hp : OnPath T v (v.num e.rob)) :
    (T (v.num e.rob + 1)).mem = if e.fault = none then
      memWriteWord (T 0).cfg.byteOrder (T (v.num e.rob)).mem e.addr.toNat e.data else (T (v.num e.rob)).mem := by
  obtain ⟨haddr, hfault, hdata⟩ := h.store hkind hok hp
  have hop : i.record.op = .sw := by rw [h.op, hkind]; rfl
  rw [mem_of_exec_sw ((hv _ h.holds.valid).exec hT h.holds.instr hp) hop, ← haddr, ← hfault, ← hdata, hT.cfg]
  cases e.fault <;> rfl

/-- A step of the run leaves the word alone that a load reads, if the step is no store that forwards to the load. -/
theorem QueueOk.readWord_step (hT : SeqTrace T) (hv : Entries T v) {q : List LsqEntry} (hq : QueueOk T v q) {a : Word} {t : Nat}
    (ht : (v.slot t).valid = true) (hp : OnPath T v (v.num t))
    (hblock : ∀ e, e ∈ q → e.rob = t → blocksLoad a e = false)
    (hforward : ∀ e, e ∈ q → e.rob = t → forwards a e = false) :
    (T (v.num t + 1)).readWord a = (T (v.num t)).readWord a := by
  have same : ∀ {m m' : State}, m'.cfg = m.cfg → m'.mem = m.mem → m'.readWord a = m.readWord a := by
    intro m m' hc hm
    rw [State.readWord, State.readWord, hc, hm]
  have hcfg : (T (v.num t + 1)).cfg = (T (v.num t)).cfg := by rw [hT.cfg, hT.cfg (v.num t)]
  cases hi : (T 0).instrAt (v.slot t).pc with
  | none =>
    rw [hT.fetchFault ((hv t ht).pc hp ▸ hi)]
    rfl
  | some i =>
    by_cases hop : i.record.op = .sw
    · obtain ⟨e, he, rfl, hkind, hok⟩ := hq.exists_store hv ht hi hop
      obtain ⟨haddrOk, hapart⟩ := apart_of_blocksLoad hkind (hblock e he rfl)
      have hmem := hok.mem_step hT hv hkind haddrOk hp
      by_cases hfault : e.fault = none
      · have hne : e.addr ≠ a := fun h => by
          have := hforward e he rfl
          rw [← Bool.not_eq_true, forwards_iff] at this
          exact this ⟨hkind, hfault, h⟩
        have hoff := hapart hfault hne
        rw [if_pos hfault] at hmem
        rw [State.readWord, State.readWord, hcfg, hmem]
        exact memReadWord_congr fun x hlo hhi => memGet_memWriteWord_of_outside (hT.canonical _) _ _ (by omega)
      · rw [if_neg hfault] at hmem
        exact same hcfg hmem
    · exact same hcfg (mem_of_exec ((hv t ht).exec hT hi hp) hop)

/-- After a store that forwards, the run has its data at the load's address. -/
theorem QueueOk.readWord_forward (hT : SeqTrace T) (hv : Entries T v) {q : List LsqEntry} (hq : QueueOk T v q) {a : Word}
    {e : LsqEntry} (he : e ∈ q) (hp : OnPath T v (v.num e.rob)) (hblock : blocksLoad a e = false)
    (hforward : forwards a e = true) : (T (v.num e.rob + 1)).readWord a = e.data := by
  obtain ⟨hkind, hfault, rfl⟩ := (forwards_iff a e).1 hforward
  obtain ⟨haddrOk, -⟩ := apart_of_blocksLoad hkind hblock
  obtain ⟨i, hok⟩ := hq.entries e he
  have hmem := hok.mem_step hT hv hkind haddrOk hp
  rw [if_pos hfault] at hmem
  rw [State.readWord, hmem, hT.cfg, memReadWord_memWriteWord (hT.canonical _)]

/-- The word at a load's address does not change along the path while no store forwards. -/
theorem QueueOk.readWord_stable (hT : SeqTrace T) (hring : v.Ring) (hv : Entries T v) {q : List LsqEntry} (hq : QueueOk T v q)
    {a : Word} {m n : Nat} (hlo : v.base ≤ m) (hmn : m ≤ n) (hhi : n ≤ v.next) (hp : OnPath T v n)
    (h : ∀ e, e ∈ q → m ≤ v.num e.rob → v.num e.rob < n → blocksLoad a e = false ∧ forwards a e = false) :
    (T n).readWord a = (T m).readWord a := by
  induction n, hmn using Nat.le_induction with
  | base => rfl
  | succ n hmn ih =>
    obtain ⟨t, ht, rfl⟩ := hring.exists_slot (hlo.trans hmn) (Nat.lt_of_succ_le hhi)
    have hbefore : OnPath T v (v.num t) := hp.mono (Nat.le_succ _)
    have here : ∀ e, e ∈ q → e.rob = t → blocksLoad a e = false ∧ forwards a e = false := fun e he hr =>
      h e he (hr ▸ hmn) (hr ▸ Nat.lt_succ_self _)
    have hstep := hq.readWord_step hT hv ht hbefore (fun e he hr => (here e he hr).1) fun e he hr => (here e he hr).2
    exact hstep.trans (ih (Nat.le_of_succ_le hhi) hbefore fun e he hm hlt => h e he hm (Nat.lt_succ_of_lt hlt))

/-- The value a load that starts gets is the word the sequential run reads (R133, R134). -/
theorem QueueOk.loadAccess_value (hT : SeqTrace T) {s : State} {q older : List LsqEntry} {l : LsqEntry} (hring : v.Ring)
    (hv : Entries T v) (hq : QueueOk T v q) (hcfg : s.cfg = (T 0).cfg) (hmem : s.mem = (T v.base).mem)
    (h : oldestEligible [] q = some (l, older)) (hp : OnPath T v (v.num l.rob)) :
    (s.loadAccess l.addr (forwardingStore older l.addr)).1 = (T (v.num l.rob)).readWord l.addr := by
  obtain ⟨pre, post, rfl, rfl, hl⟩ := exists_of_oldestEligible h
  rw [List.append_nil] at hl ⊢
  have hblock : ∀ e, e ∈ pre → blocksLoad l.addr e = false := fun e he =>
    (eligible_iff.1 hl).2 e (List.mem_reverse.2 he)
  obtain ⟨i, hload⟩ := hq.entries l (by simp)
  have hhi : v.num l.rob ≤ v.next := (hring.num_lt hload.holds.valid).le
  cases hfind : forwardingStore pre.reverse l.addr with
  | none =>
    have hnone : ∀ e, e ∈ pre → forwards l.addr e = false := fun e he =>
      Bool.not_eq_true _ ▸ List.find?_eq_none.1 hfind e (List.mem_reverse.2 he)
    have hstable := hq.readWord_stable hT hring hv (a := l.addr) (le_refl _) (v.base_le_num l.rob) hhi hp
      fun e he _ hlt => ⟨hblock e (hq.mem_pre he hlt), hnone e (hq.mem_pre he hlt)⟩
    rw [hstable, State.loadAccess_value, State.readWord, State.readWord, hcfg, hmem, hT.cfg v.base]
  | some st =>
    obtain ⟨hst, near, far, hsplit, hnear⟩ := List.find?_eq_some_iff_append.1 hfind
    obtain rfl : pre = far.reverse ++ st :: near.reverse := by
      rw [← List.reverse_reverse pre, hsplit]
      simp
    have hmem_st : st ∈ far.reverse ++ st :: near.reverse := by simp
    have hlt := hq.num_lt_of_mem_pre hmem_st
    have hstore := hq.readWord_forward hT hv (List.mem_append_left _ hmem_st) (hp.mono hlt.le) (hblock st hmem_st) hst
    have hpre : QueueOk T v (far.reverse ++ st :: (near.reverse ++ l :: post)) := by simpa using hq
    have hstable := hq.readWord_stable hT hring hv (a := l.addr) (Nat.le_succ_of_le (v.base_le_num st.rob)) hlt hhi hp
      fun e he hm hbefore => by
        have hin := hq.mem_pre he hbefore
        refine ⟨hblock e hin, ?_⟩
        rcases List.mem_append.1 hin with hfar | hafter
        · exact absurd (hpre.num_lt_of_mem_pre hfar) (by omega)
        · rcases List.mem_cons.1 hafter with rfl | hmid
          · omega
          · simpa using hnear e (List.mem_reverse.1 hmid)
    rw [hstable, hstore]
    rfl

end Sys2Proof.Machine
end

section
/-!
SUPPORT. Completing an entry: what is known of the window and of the records in flight is kept when an instruction leaves
its last place and its entry is completed (R120, R128).
-/

namespace Sys2Proof.Machine

open Window

variable {T : Nat → State} {w v : Window} {f : Flight}

/-- The entries and the records in flight, with what execution has not changed since `w`. -/
structure Engine (T : Nat → State) (w v : Window) (f : Flight) : Prop where
  shape : SameShape w v
  ring : v.Ring
  entries : Entries T v
  flight : FlightOk T v f

/-- `e` completes the entry of slot `c`, which holds the instruction `i`. -/
structure Completes (T : Nat → State) (v : Window) (c : Nat) (i : Instr) (e : RobEntry) : Prop where
  shape : e.shape = (v.slot c).shape
  completed : e.completed = true
  store : i.record.op = .sw → e.actualNextPc = (v.slot c).actualNextPc
  settled : OnPath T v (v.num c) → Settled (T (v.num c)) (T (v.num c + 1)) e

section Put

variable {c : Nat} {i : Instr} {e : RobEntry}

theorem RobEntry.For.of_sameShape {e e' : RobEntry} (h : e.For i) (hs : e.SameShape e') : e'.For i where
  op := hs.op.trans h.op
  dest := hs.dest.trans h.dest
  isStore := hs.isStore.trans h.isStore
  hasLsq := hs.hasLsq.trans h.hasLsq

theorem EntryOk.complete (hring : v.Ring) (h : EntryOk T v c) (hp : Pending T v c i) (he : Completes T v c i e) :
    EntryOk T (v.put c e) c := by
  have hshape := RobEntry.sameShape he.shape
  have hsame := hring.sameShape_put hp.valid hshape
  have hinstr := hp.instr
  constructor <;> rw [hring.slot_put_self hp.valid]
  · rw [hsame.num, hsame.onPath_iff, hshape.pc]
    exact h.pc
  · rw [hshape.pc, hshape.op, hshape.dest, hshape.hasLsq]
    exact h.fault
  · rw [hshape.pc]
    exact fun i' hi => (h.instr i' hi).of_sameShape hshape
  · rw [hshape.pc]
    intro i' hi hdec
    have hdone := (h.decode i' hi hdec).1
    rw [hp.waiting] at hdone
    cases hdone
  · rw [he.completed]
    exact fun hno => nomatch hno
  · rw [hshape.pc]
    intro i' hi hop
    obtain rfl : i = i' := Option.some.inj (hinstr.symm.trans hi)
    rw [he.store hop, h.store i hi hop]
  · rw [hsame.num, hsame.onPath_iff]
    exact fun _ _ => he.settled

theorem Entries.put (hring : v.Ring) (hv : Entries T v) (hp : Pending T v c i) (he : Completes T v c i e) :
    Entries T (v.put c e) := by
  have hsame := hring.sameShape_put hp.valid (RobEntry.sameShape he.shape)
  intro t ht
  rw [(hsame.slot t).valid] at ht
  by_cases hc : t = c
  · rw [hc]
    exact (hv c hp.valid).complete hring hp he
  · exact (hv t ht).keep hsame.keeps_put hc (hring.num_lt ht).le

theorem SnapshotOk.of_sameShape {v' : Window} {t : Nat} {r : Reg} {x : Snapshot} (h : SnapshotOk v t r x)
    (hs : SameShape v v') : SnapshotOk v' t r x := by
  cases x with
  | const0 => exact h
  | arch i =>
    obtain ⟨rfl, hw⟩ := h
    exact ⟨rfl, by rw [hs.num]; exact hs.noWriter hw⟩
  | tag p q i =>
    obtain ⟨rfl, hw⟩ := h
    refine ⟨rfl, ?_⟩
    rw [(hs.slot p).valid, (hs.slot p).seq, hs.num]
    exact hw.imp (And.imp_right hs.lastWriter) (And.imp_right hs.noWriter)

/-- What is known of a queue entry is kept when an entry is completed that is not that of a load that may start. -/
theorem QueuedOk.put {l : LsqEntry} {j : Instr} (h : QueuedOk T v l j) (hs : SameShape v (v.put c e))
    (hl : l.startable = true → l.rob ≠ c) : QueuedOk T (v.put c e) l j where
  holds :=
    { valid := (hs.slot _).valid.trans h.holds.valid
      instr := by rw [(hs.slot _).pc]; exact h.holds.instr }
  op := h.op
  load hstart := by
    rw [hs.num, hs.onPath_iff, slot_put_of_ne e (hl hstart)]
    exact h.load hstart
  store := by
    rw [hs.num, hs.onPath_iff]
    exact h.store

/-- No operand of a valid station waits for slot `c`, unless `ok`. -/
def NoneWaits (f : Flight) (c : Nat) (ok : Prop) : Prop :=
  ∀ k x, x ∈ f.rs.get k → x.valid = true →
    (x.a.ready = false → x.a.tag = c → ok) ∧ (x.b.ready = false → x.b.tag = c → ok)

theorem FlightOk.put (h : FlightOk T v f) (hring : v.Ring) (hp : Pending T v c i) (hshape : (v.slot c).SameShape e)
    (hfree : f.places c = 0) (hwait : NoneWaits f c (e.exception ≠ none)) : FlightOk T (v.put c e) f := by
  have hs := hring.sameShape_put hp.valid hshape
  have hk : Keeps T v (v.put c e) (· ≠ c) := hs.keeps_put
  have hc : (v.put c e).slot c = e := hring.slot_put_self hp.valid e
  have hlt : ∀ {t j}, Pending T v t j → v.num t ≤ v.next := fun hj => (hring.num_lt hj.valid).le
  obtain ⟨fdl, frs, ffu, fcdbq, fport, flsq⟩ := FlightOk.not_in_flight hfree
  constructor
  case latch =>
    intro d hd r k hbody hop
    obtain ⟨j, hj, hrec, hpc, h1, h2⟩ := h.latch d hd r k hbody hop
    have hne := fdl d hd (by rw [bodyClass_eq_some_iff.2 ⟨r, hbody, hop⟩]; rfl)
    exact ⟨j, hj.keep hk hne, hrec, by rw [(hs.slot _).pc]; exact hpc, h1.of_sameShape hs, h2.of_sameShape hs⟩
  case stations =>
    intro k x hx hvalid
    obtain ⟨j, hj⟩ := h.stations k x hx hvalid
    have hne := frs k x hx hvalid
    obtain ⟨ha, hb⟩ := hwait k x hx hvalid
    have hlast : ∀ n r p, LastWriter v n r p → LastWriter (v.put c e) n r p := fun _ _ _ hw => hs.lastWriter hw
    exact ⟨j,
      { pending := hj.pending.keep hk hne
        cls := hj.cls
        op := hj.op
        imm := hj.imm
        pc := by rw [(hs.slot _).pc]; exact hj.pc
        a := hj.a.keep_of_exception hk hne (hlt hj.pending) hlast (by rw [hc]; exact ha)
        b := hj.b.keep_of_exception hk hne (hlt hj.pending) hlast (by rw [hc]; exact hb) }⟩
  case units =>
    intro k u hu hbusy
    obtain ⟨j, hj⟩ := h.units k u hu hbusy
    exact ⟨j, hj.keep hk (ffu k u hu hbusy) (hlt hj.pending)⟩
  case results =>
    intro r hr
    obtain ⟨j, hj⟩ := h.results r hr
    exact ⟨j, hj.keep hk (fcdbq r hr) (hlt hj.pending)⟩
  case port =>
    intro hbusy
    obtain ⟨j, hj⟩ := h.port hbusy
    exact ⟨j, hj.keep hk (fport hbusy) (hlt hj.pending)⟩
  case queue =>
    obtain ⟨sorted, entries, complete⟩ := h.queue
    refine ⟨by simpa only [hs.num] using sorted, fun l hl => ?_, fun t ht hlsq => ?_⟩
    · obtain ⟨j, hj⟩ := entries l hl
      exact ⟨j, hj.put hs (flsq l hl)⟩
    · rw [(hs.slot t).valid] at ht
      rw [(hs.slot t).hasLsq] at hlsq
      exact complete t ht hlsq
  case once => exact h.once

/-- An instruction that has left its last place completes its entry. -/
theorem Engine.complete (h : Engine T w v f) (hp : Pending T v c i) (he : Completes T v c i e)
    (hfree : f.places c = 0) (hwait : NoneWaits f c (e.exception ≠ none)) : Engine T w (v.put c e) f where
  shape := h.shape.trans (h.ring.sameShape_put hp.valid (RobEntry.sameShape he.shape))
  ring := h.ring.put (h.ring.sameShape_put hp.valid (RobEntry.sameShape he.shape))
  entries := h.entries.put h.ring hp he
  flight := h.flight.put h.ring hp (RobEntry.sameShape he.shape) hfree hwait

end Put

end Sys2Proof.Machine
end

section
/-!
SUPPORT. The memory stage moves a load from the queue to the port, and from the port to the results (R133 to R137).
-/

namespace Sys2Proof.Machine

open Window

variable {T : Nat → State} {w v : Window}

/-! ### The queue under a change of its entries -/

theorem QueueOk.map {q : List LsqEntry} {g : LsqEntry → LsqEntry} (h : QueueOk T v q) (hrob : ∀ l, (g l).rob = l.rob)
    (hok : ∀ l i, l ∈ q → QueuedOk T v l i → QueuedOk T v (g l) i) : QueueOk T v (q.map g) where
  sorted := by
    rw [List.map_map]
    simpa only [Function.comp_def, hrob] using h.sorted
  entries l hl := by
    obtain ⟨x, hx, rfl⟩ := List.mem_map.1 hl
    obtain ⟨i, hi⟩ := h.entries x hx
    exact ⟨i, hok x i hx hi⟩
  complete t ht hlsq := by
    obtain ⟨l, hl, rfl⟩ := h.complete t ht hlsq
    exact ⟨g l, List.mem_map_of_mem hl, hrob l⟩

theorem QueuedOk.setLoadState {l : LsqEntry} {i : Instr} (h : QueuedOk T v l i) {st : LoadState} (hst : st ≠ .ready) :
    QueuedOk T v { l with lstate := st } i where
  holds := h.holds
  op := h.op
  load hs := by simp [LsqEntry.startable, hst] at hs
  store := h.store

theorem QueueOk.setLoadState {q : List LsqEntry} (h : QueueOk T v q) {st : LoadState} (hst : st ≠ .ready) (t : Nat) :
    QueueOk T v (setLoadState st t q) := by
  refine h.map (fun l => ?_) fun l i _ hi => ?_
  · split <;> rfl
  · split
    · exact hi.setLoadState hst
    · exact hi

theorem loadCount_setLoadState {st : LoadState} (hst : st ≠ .ready) (r t : Nat) (q : List LsqEntry) :
    loadCount t (setLoadState st r q) = if r = t then 0 else loadCount t q := by
  rw [loadCount, Machine.setLoadState, List.countP_map]
  split
  · rename_i hr
    subst hr
    refine List.countP_eq_zero.2 fun l _ => ?_
    by_cases hl : l.rob = r <;> simp [hl, LsqEntry.startable, hst]
  · rename_i hr
    refine List.countP_congr fun l _ => ?_
    by_cases hl : l.rob = r
    · subst hl
      simp [hr]
    · simp [hl]

/-! ### A load starts -/

/-- What starting a load does to the records in flight (R135). -/
theorem State.startLoad_flight (s : State) :
    s.startLoad.flight = s.flight ∨
    ∃ l older lat, s.mport.busy = false ∧ oldestEligible [] s.lsq = some (l, older) ∧ s.startLoad.flight =
      { s.flight with
        mport := ⟨true, lat, l.seq, l.rob, (s.loadAccess l.addr (forwardingStore older l.addr)).1⟩
        lsq := setLoadState .accessing l.rob s.lsq } := by
  by_cases hbusy : s.mport.busy = true
  · exact .inl (by rw [State.startLoad, if_pos hbusy])
  · cases hold : oldestEligible [] s.lsq with
    | none => exact .inl (by rw [State.startLoad, if_neg hbusy, hold])
    | some x =>
      obtain ⟨l, older⟩ := x
      refine .inr ⟨l, older, (s.loadAccess l.addr (forwardingStore older l.addr)).2.1, by simpa using hbusy, rfl, ?_⟩
      rw [State.startLoad, if_neg hbusy, hold]
      simp only [State.flight, State.loadAccess_dl, State.loadAccess_rs, State.loadAccess_fu, State.loadAccess_cdbq,
        State.loadAccess_lsq]

theorem State.startLoad_window (s : State) : s.startLoad.window = s.window := by simp [State.window]

theorem startable_kind {l : LsqEntry} (h : l.startable = true) : l.kind = .load := by
  simp [LsqEntry.startable] at h
  exact h.1

/-- A queue entry that may start is counted. -/
theorem loadCount_pos {q : List LsqEntry} {l : LsqEntry} (hl : l ∈ q) (hs : l.startable = true) :
    1 ≤ loadCount l.rob q :=
  List.countP_pos_iff.2 ⟨l, hl, by simp [hs]⟩

theorem Engine.startLoad (hT : SeqTrace T) {s : State} (h : Engine T w s.window s.flight) (hcfg : s.cfg = (T 0).cfg)
    (hmem : s.mem = (T w.base).mem) : Engine T w s.startLoad.window s.startLoad.flight := by
  rw [s.startLoad_window]
  obtain hsame | ⟨l, older, lat, hfree, hold, hflight⟩ := s.startLoad_flight
  · rw [hsame]
    exact h
  · rw [hflight]
    obtain ⟨shape, ring, entries, flight⟩ := h
    obtain ⟨pre, post, hq, -, hel⟩ := exists_of_oldestEligible hold
    have hin : l ∈ s.lsq := by simp [hq]
    obtain ⟨hs, -⟩ := eligible_iff.1 hel
    obtain ⟨i, hl⟩ := flight.queue.entries l hin
    have hport : PortOk T s.window ⟨true, lat, l.seq, l.rob, (s.loadAccess l.addr (forwardingStore older l.addr)).1⟩ i :=
      { pending := ⟨hl.holds, (hl.load hs).1⟩
        op := by rw [hl.op, if_pos (startable_kind hs)]
        value := fun hp => by
          obtain ⟨haddr, hfault⟩ := (hl.load hs).2 hp
          dsimp only at hp ⊢
          rw [← haddr]
          exact ⟨hfault, flight.queue.loadAccess_value hT ring entries hcfg (by rw [shape.base, hmem]) hold hp⟩ }
    refine ⟨shape, ring, entries,
      { flight with port := fun _ => ⟨i, hport⟩, queue := flight.queue.setLoadState (by decide) _, once := fun t => ?_ }⟩
    have honce := flight.once t
    have hpos := loadCount_pos hin hs
    simp only [Flight.places, State.flight, portCount, hfree, loadCount_setLoadState (st := .accessing) (by decide)]
      at honce ⊢
    by_cases ht : l.rob = t
    · subst ht
      simp only [Bool.false_and, Bool.true_and, beq_self_eq_true, if_true] at honce ⊢
      simp at honce
      omega
    · simpa [ht] using honce

/-! ### The port counts down -/

/-- The result of the port's load settles its entry (R134). -/
theorem PortOk.result (hT : SeqTrace T) {s : State} {i : Instr} (hv : Entries T s.window)
    (h : PortOk T s.window s.mport i) : ResultOk T s.window s.loadResult i where
  pending := h.pending
  cls := by rw [h.op]; simp [opClass]
  op := by rw [h.op]; decide
  settles hp := by
    obtain ⟨hfault, hvalue⟩ := h.value hp
    have he := hv _ h.pending.valid
    have hshape := RobEntry.sameShape ((s.window.slot s.mport.rob).shape_broadcast s.loadResult)
    refine settled_of_lw (he.exec hT h.pending.instr hp) h.op ((he.instr i h.pending.instr).of_sameShape hshape) hfault
      (he.clean h.pending.waiting) hvalue ?_
    exact congrArg nextSequential (he.pc hp)

theorem State.countPort_window (s : State) : s.countPort.window = s.window := by simp [State.window]

theorem Engine.countPort (hT : SeqTrace T) {s : State} (h : Engine T w s.window s.flight) :
    Engine T w s.countPort.window s.countPort.flight := by
  rw [s.countPort_window]
  obtain ⟨shape, ring, entries, flight⟩ := h
  by_cases hbusy : s.mport.busy = true
  · obtain ⟨i, hi⟩ := flight.port hbusy
    by_cases hlast : s.mport.remaining - 1 = 0
    · have hflight : s.countPort.flight =
          { s.flight with
            cdbq := s.cdbq ++ [s.loadResult]
            mport := { s.mport with busy := false, remaining := s.mport.remaining - 1 } } := by
        rw [State.countPort, if_pos hbusy, if_pos hlast]
        rfl
      rw [hflight]
      refine ⟨shape, ring, entries, { flight with
        port := nofun
        results := fun r hr => ?_
        once := fun t => ?_ }⟩
      · rcases List.mem_append.1 hr with hr | hr
        · exact flight.results r hr
        · obtain rfl := List.mem_singleton.1 hr
          exact ⟨i, hi.result hT entries⟩
      · have honce := flight.once t
        simp only [Flight.places, State.flight, portCount, resultCount, List.countP_append, hbusy, State.loadResult,
          List.countP_singleton] at honce ⊢
        simpa only [Bool.true_and, Bool.false_and, Bool.false_eq_true, if_false, Nat.add_zero, Nat.add_assoc]
          using honce
    · have hflight : s.countPort.flight =
          { s.flight with mport := { s.mport with remaining := s.mport.remaining - 1 } } := by
        rw [State.countPort, if_pos hbusy, if_neg hlast]
        rfl
      rw [hflight]
      exact ⟨shape, ring, entries, { flight with
        port := fun _ => ⟨i, hi.pending, hi.op, hi.value⟩
        once := flight.once }⟩
  · have hflight : s.countPort.flight = s.flight := by rw [State.countPort, if_neg hbusy]
    rw [hflight]
    exact ⟨shape, ring, entries, flight⟩

/-- The memory stage keeps what is known (R135). -/
theorem Engine.memoryStage (hT : SeqTrace T) {s : State} (h : Engine T w s.window s.flight) (hcfg : s.cfg = (T 0).cfg)
    (hmem : s.mem = (T w.base).mem) : Engine T w s.memoryStage.window s.memoryStage.flight :=
  (h.startLoad hT hcfg hmem).countPort hT

end Sys2Proof.Machine
end

section
/-!
SUPPORT. Selection moves a ready instruction from its station to a unit (R113 to R116).
-/

namespace Sys2Proof.Machine

open Window

variable {T : Nat → State} {w v : Window}

/-- What selection for a class does: the units `us` and the stations `rs` become `us'` and `rs'`. -/
structure Dispatched (lat : Nat) (us us' : List FuUnit) (rs rs' : List RsEntry) : Prop where
  stations : ∀ e, e ∈ rs' → e.valid = true → e ∈ rs
  units : ∀ u, u ∈ us' → u.busy = true → u ∈ us ∨ ∃ e, e ∈ rs ∧ e.valid = true ∧ e.isReady = true ∧ u = bindUnit lat e
  count : ∀ t, unitCount t us' + stationCount t rs' = unitCount t us + stationCount t rs

theorem oldestReady_some {rs : List RsEntry} {i : Nat} (h : oldestReady rs = some i) :
    ∃ e, rs[i]? = some e ∧ e.valid = true ∧ e.isReady = true := by
  obtain ⟨⟨i', q⟩, hlow, rfl⟩ := Option.map_eq_some_iff.1 h
  obtain ⟨e, he, hkey, -⟩ := lowestIdx_some hlow
  unfold selectKey at hkey
  split at hkey
  · rename_i hboth
    exact ⟨e, he, by simpa using hboth⟩
  · cases hkey

theorem mem_updateAt_free {rs : List RsEntry} {i : Nat} {e : RsEntry} (he : e ∈ updateAt RsEntry.free rs i)
    (hvalid : e.valid = true) : e ∈ rs := by
  rcases mem_updateAt he with h | ⟨y, -, rfl⟩
  · exact h
  · cases hvalid

theorem dispatched (lat : Nat) (k : FuClass) (us : List FuUnit) (rs : List RsEntry) :
    Dispatched lat us (dispatchUnits lat k us rs).1 rs (dispatchUnits lat k us rs).2.1 := by
  induction us generalizing rs with
  | nil => exact ⟨fun _ h _ => h, fun _ h _ => .inl h, fun _ => rfl⟩
  | cons u us ih =>
    unfold dispatchUnits
    split
    · obtain ⟨stations, units, count⟩ := ih rs
      refine ⟨stations, fun x hx hbusy => ?_, fun t => ?_⟩
      · rcases List.mem_cons.1 hx with rfl | hx
        · exact .inl List.mem_cons_self
        · exact (units x hx hbusy).imp_left (List.mem_cons_of_mem u)
      · have := count t
        show unitCount t (u :: (dispatchUnits lat k us rs).1) + stationCount t (dispatchUnits lat k us rs).2.1 = _
        simp only [unitCount, List.countP_cons] at this ⊢
        omega
    · rename_i hfree
      split
      · exact ⟨fun _ h _ => h, fun _ h _ => .inl h, fun _ => rfl⟩
      · rename_i i hold
        obtain ⟨e, he, hvalid, hready⟩ := oldestReady_some hold
        obtain ⟨stations, units, count⟩ := ih (updateAt RsEntry.free rs i)
        rw [entryAt_of_getElem? he]
        refine ⟨fun x hx hv => mem_updateAt_free (stations x hx hv) hv, fun x hx hbusy => ?_, fun t => ?_⟩
        · rcases List.mem_cons.1 hx with rfl | hx
          · exact .inr ⟨e, List.mem_of_getElem? he, hvalid, hready, rfl⟩
          · rcases units x hx hbusy with h | ⟨y, hy, hyv, hyr, rfl⟩
            · exact .inl (List.mem_cons_of_mem u h)
            · exact .inr ⟨y, mem_updateAt_free hy hyv, hyv, hyr, rfl⟩
        · have hrest := count t
          have hupd := countP_updateAt (fun x : RsEntry => x.valid && x.rob == t) RsEntry.free he
          have hbound : (bindUnit lat e).busy = true := rfl
          have hrob : (bindUnit lat e).rob = e.rob := rfl
          have hfreed : (RsEntry.free e).valid = false := rfl
          show unitCount t (Machine.bindUnit lat e :: (dispatchUnits lat k us (updateAt RsEntry.free rs i)).1) +
            stationCount t (dispatchUnits lat k us (updateAt RsEntry.free rs i)).2.1 = _
          simp only [unitCount, stationCount, List.countP_cons, hbound, hrob, hfreed, hvalid, hfree, Bool.true_and,
            Bool.false_and, Bool.false_eq_true, if_false] at hrest hupd ⊢
          omega

/-- A ready station's instruction in a unit (R115). -/
theorem StationOk.bindUnit {k : FuClass} {e : RsEntry} {i : Instr} (h : StationOk T v k e i) (hready : e.isReady = true)
    (lat : Nat) : UnitOk T v k (bindUnit lat e) i where
  pending := h.pending
  cls := h.cls
  op := h.op
  imm := h.imm
  pc := h.pc
  operands hp := by
    simp only [RsEntry.isReady, Bool.and_eq_true] at hready
    exact ⟨h.a.ready hready.1 hp, h.b.ready hready.2 hp⟩

/-- The records in flight after selection for class `k`. -/
def Flight.dispatch (f : Flight) (lat : Nat) (k : FuClass) : Flight :=
  { f with
    fu := f.fu.set k (dispatchUnits lat k (f.fu.get k) (f.rs.get k)).1
    rs := f.rs.set k (dispatchUnits lat k (f.fu.get k) (f.rs.get k)).2.1 }

theorem FlightOk.dispatch {f : Flight} (h : FlightOk T v f) (lat : Nat) (k : FuClass) : FlightOk T v (f.dispatch lat k) := by
  obtain ⟨stations, units, count⟩ := dispatched lat k (f.fu.get k) (f.rs.get k)
  refine { h with stations := fun k' e he hvalid => ?_, units := fun k' u hu hbusy => ?_, once := fun t => ?_ }
  · rw [Flight.dispatch, PerClass.get_set] at he
    split at he
    · rename_i hk
      subst hk
      exact h.stations _ e (stations e he hvalid) hvalid
    · exact h.stations k' e he hvalid
  · rw [Flight.dispatch, PerClass.get_set] at hu
    split at hu
    · rename_i hk
      subst hk
      rcases units u hu hbusy with hold | ⟨e, he, hvalid, hready, rfl⟩
      · exact h.units _ u hold hbusy
      · obtain ⟨i, hi⟩ := h.stations _ e he hvalid
        exact ⟨i, hi.bindUnit hready lat⟩
    · exact h.units k' u hu hbusy
  · have honce := h.once t
    have hcount := count t
    have hrs := classTotal_set (stationCount t) f.rs k (dispatchUnits lat k (f.fu.get k) (f.rs.get k)).2.1
    have hfu := classTotal_set (unitCount t) f.fu k (dispatchUnits lat k (f.fu.get k) (f.rs.get k)).1
    simp only [Flight.places, Flight.dispatch] at honce ⊢
    omega

theorem State.selectStage_flight (s : State) :
    ∃ a b c, s.selectStage.flight = ((s.flight.dispatch a .alu).dispatch b .fpu).dispatch c .lsu := by
  have raw : ∀ (t : State) (n : Nat), (t.countRaw n).flight = t.flight := fun t n => by
    unfold State.countRaw
    split <;> rfl
  exact ⟨_, _, _, raw _ _⟩

theorem State.selectStage_window (s : State) : s.selectStage.window = s.window := by simp [State.window]

theorem Engine.selectStage {s : State} (h : Engine T w s.window s.flight) :
    Engine T w s.selectStage.window s.selectStage.flight := by
  obtain ⟨a, b, c, hflight⟩ := s.selectStage_flight
  rw [s.selectStage_window, hflight]
  exact ⟨h.shape, h.ring, h.entries, ((h.flight.dispatch a .alu).dispatch b .fpu).dispatch c .lsu⟩

end Sys2Proof.Machine
end

section
/-!
SUPPORT. A unit that finishes posts its result or resolves its address (R116 to R118, R128).
-/

namespace Sys2Proof.Machine

open Window

variable {T : Nat → State} {w v : Window} {f : Flight}

/-! ### One unit of a class -/

/-- The records in flight with unit `j` of class `k` replaced. -/
def Flight.setUnit (f : Flight) (k : FuClass) (j : Nat) (u : FuUnit) : Flight :=
  { f with fu := f.fu.set k (updateAt (fun _ => u) (f.fu.get k) j) }

theorem Flight.places_setUnit {k : FuClass} {j : Nat} {u u' : FuUnit} (hu : (f.fu.get k)[j]? = some u) (t : Nat) :
    (f.setUnit k j u').places t + (if u.busy && u.rob == t then 1 else 0) =
      f.places t + if u'.busy && u'.rob == t then 1 else 0 := by
  have hupd := countP_updateAt (fun x : FuUnit => x.busy && x.rob == t) (fun _ => u') hu
  have htotal := classTotal_set (unitCount t) f.fu k (updateAt (fun _ => u') (f.fu.get k) j)
  simp only [Flight.places, Flight.setUnit, unitCount] at htotal ⊢
  omega

/-- A unit may change into one of the same instruction, or become free. -/
theorem FlightOk.setUnit {k : FuClass} {j : Nat} {u u' : FuUnit} (h : FlightOk T v f)
    (hu : (f.fu.get k)[j]? = some u) (hbusy : u.busy = true) (hrob : u'.rob = u.rob)
    (hok : u'.busy = true → ∃ i, UnitOk T v k u' i) : FlightOk T v (f.setUnit k j u') := by
  refine { h with units := fun k' x hx hxbusy => ?_, once := fun t => ?_ }
  · rw [Flight.setUnit, PerClass.get_set] at hx
    split at hx
    · rename_i hk
      subst hk
      rcases mem_updateAt hx with hx | ⟨y, -, rfl⟩
      · exact h.units _ x hx hxbusy
      · exact hok hxbusy
    · exact h.units k' x hx hxbusy
  · have honce := h.once t
    have hplaces := Flight.places_setUnit (u' := u') hu t
    rw [hbusy, hrob, Bool.true_and] at hplaces
    have hle : (if (u'.busy && u.rob == t) = true then 1 else 0) ≤ if (u.rob == t) = true then 1 else 0 := by
      cases u'.busy
      · exact Nat.zero_le _
      · exact le_refl _
    omega

/-- A unit that becomes free was the only place of its instruction. -/
theorem FlightOk.places_of_freed {k : FuClass} {j : Nat} {u u' : FuUnit} (h : FlightOk T v f)
    (hu : (f.fu.get k)[j]? = some u) (hbusy : u.busy = true) (hfree : u'.busy = false) :
    (f.setUnit k j u').places u.rob = 0 := by
  have honce := h.once u.rob
  have hplaces := Flight.places_setUnit (u' := u') hu u.rob
  simp only [hbusy, hfree, Bool.true_and, Bool.false_and, beq_self_eq_true, if_true, Bool.false_eq_true, if_false]
    at hplaces
  omega

theorem State.getElem?_unitAt {s : State} {k : FuClass} {j : Nat} (h : (s.unitAt k j).busy = true) :
    (s.fu.get k)[j]? = some (s.unitAt k j) := by
  rw [State.unitAt, entryAt_eq_getD, List.getD_eq_getElem?_getD] at h ⊢
  cases hj : (s.fu.get k)[j]? with
  | none => rw [hj] at h; cases h
  | some u => rfl

theorem FuUnit.ticked_busy {u : FuUnit} (h : u.busy = true) : u.ticked.busy = !u.finishes := by
  simp [FuUnit.ticked, FuUnit.finishes, h, bne]

theorem FuUnit.ticked_rob (u : FuUnit) : u.ticked.rob = u.rob := by
  unfold FuUnit.ticked
  split <;> rfl

theorem UnitOk.ticked {k : FuClass} {u : FuUnit} {i : Instr} (h : UnitOk T v k u i) : UnitOk T v k u.ticked i := by
  unfold FuUnit.ticked
  split
  · exact ⟨h.pending, h.cls, h.op, h.imm, h.pc, h.operands⟩
  · exact h

/-! ### A result is posted -/

theorem FlightOk.addResult {r : CdbResult} {i : Instr} (h : FlightOk T v f) (hr : ResultOk T v r i)
    (hfree : f.places r.rob = 0) : FlightOk T v { f with cdbq := f.cdbq ++ [r] } := by
  refine { h with results := fun x hx => ?_, once := fun t => ?_ }
  · rcases List.mem_append.1 hx with hx | hx
    · exact h.results x hx
    · obtain rfl := List.mem_singleton.1 hx
      exact ⟨i, hr⟩
  · have honce := h.once t
    simp only [Flight.places, resultCount, List.countP_append, List.countP_singleton] at honce hfree ⊢
    by_cases ht : r.rob = t
    · subst ht
      simp only [beq_self_eq_true, if_true]
      omega
    · simp only [beq_iff_eq, ht, if_false]
      omega

/-- The result of a unit of class ALU settles its entry (R118). -/
theorem UnitOk.result (hT : SeqTrace T) {u : FuUnit} {i : Instr} (hv : Entries T v) (h : UnitOk T v .alu u i) :
    ResultOk T v (u.result (T 0).cfg.overflowTraps) i where
  pending := h.pending
  cls := by rw [h.cls]; simp
  op := opClass_alu_ne_sw h.cls
  settles hp := by
    have hp : OnPath T v (v.num u.rob) := hp
    have he := hv _ h.pending.valid
    have hclean := he.clean h.pending.waiting
    obtain ⟨ha, hb⟩ := h.operands hp
    have hresult : unitResult (T 0).cfg.overflowTraps u.op u.a u.b u.imm u.pc = (T (v.num u.rob)).aluResult i := by
      rw [h.op, h.imm, h.pc, ha, hb, he.pc hp, State.aluResult, hT.cfg (v.num u.rob)]
    have hshape := RobEntry.sameShape ((v.slot u.rob).shape_broadcast (u.result (T 0).cfg.overflowTraps))
    show Settled (T (v.num u.rob)) (T (v.num u.rob + 1)) ((v.slot u.rob).broadcast (u.result (T 0).cfg.overflowTraps))
    refine settled_of_alu (he.exec hT h.pending.instr hp) h.cls ((he.instr i h.pending.instr).of_sameShape hshape)
      ?_ (fun c hc => ?_) fun hnone => ?_
    · rw [← hresult]
      unfold RobEntry.broadcast
      split
      · rename_i c hc
        exact hc.symm
      · rename_i hnone
        exact hclean.trans hnone.symm
    · rw [← hresult] at hc ⊢
      have hc : (u.result (T 0).cfg.overflowTraps).exception = some c := hc
      rw [RobEntry.broadcast, hc]
      rfl
    · rw [← hresult] at hnone ⊢
      have hnone : (u.result (T 0).cfg.overflowTraps).exception = none := hnone
      rw [RobEntry.broadcast, hnone]
      exact ⟨rfl, rfl⟩

/-! ### An address is resolved -/

theorem LsqEntry.resolved_rob (l : LsqEntry) (ea data : Word) (fault : Option Cause) :
    (l.resolved ea data fault).rob = l.rob := by
  unfold LsqEntry.resolved
  split <;> rfl

theorem LsqEntry.resolved_kind (l : LsqEntry) (ea data : Word) (fault : Option Cause) :
    (l.resolved ea data fault).kind = l.kind := by
  unfold LsqEntry.resolved
  split <;> rfl

/-- A resolved entry may start if it is a load that does not raise (R128, R130). -/
theorem LsqEntry.startable_resolved (l : LsqEntry) (ea data : Word) (fault : Option Cause) :
    (l.resolved ea data fault).startable = (l.kind == .load && fault == none) := by
  rw [LsqEntry.resolved, LsqEntry.startable]
  cases hk : l.kind with
  | store => rfl
  | load => cases fault <;> rfl

theorem QueuedOk.resolved {l : LsqEntry} {i : Instr} {ea data : Word} (hT : SeqTrace T) (h : QueuedOk T v l i)
    (hwait : (v.slot l.rob).completed = false)
    (hvals : OnPath T v (v.num l.rob) → ea = (T (v.num l.rob)).accessAddr i ∧ data = (T (v.num l.rob)).reg i.record.rs2) :
    QueuedOk T v (l.resolved ea data (addressFault (T 0).cfg.memSize ea)) i where
  holds := by rw [l.resolved_rob]; exact h.holds
  op := by rw [l.resolved_kind]; exact h.op
  load hs := by
    rw [l.startable_resolved, Bool.and_eq_true, beq_iff_eq, beq_iff_eq] at hs
    obtain ⟨hkind, hfault⟩ := hs
    rw [l.resolved_rob]
    refine ⟨hwait, fun hp => ?_⟩
    have haddr : (l.resolved ea data (addressFault (T 0).cfg.memSize ea)).addr = ea := by
      rw [LsqEntry.resolved, hkind]
    rw [haddr, hT.cfg]
    exact ⟨(hvals hp).1, hfault⟩
  store hkind _ hp := by
    rw [l.resolved_kind] at hkind
    rw [l.resolved_rob] at hp ⊢
    rw [LsqEntry.resolved, hkind]
    exact ⟨(hvals hp).1, by rw [hT.cfg (v.num l.rob)], (hvals hp).2⟩

/-- A slot has one entry in the queue at most. -/
theorem QueueOk.countP_rob_le {q : List LsqEntry} (h : QueueOk T v q) (c : Nat) :
    q.countP (fun l => l.rob == c) ≤ 1 := by
  have hnodup : (q.map fun l => v.num l.rob).Nodup := h.sorted.imp (fun hlt => Nat.ne_of_lt hlt)
  refine le_trans ?_ (List.nodup_iff_count_le_one.1 hnodup (v.num c))
  rw [List.count, List.countP_map]
  refine List.countP_mono_left fun l _ hl => ?_
  have hl : l.rob = c := by simpa using hl
  simp [hl]

/-- The queue after the address of slot `c` has been resolved (R128). -/
def resolveQueue (c : Nat) (ea data : Word) (fault : Option Cause) (q : List LsqEntry) : List LsqEntry :=
  q.map fun x => if x.rob = c then x.resolved ea data fault else x

theorem loadCount_resolveQueue {q : List LsqEntry} {c : Nat} (ea data : Word) (fault : Option Cause) (t : Nat) :
    loadCount t (resolveQueue c ea data fault q) =
      if t = c then q.countP fun x => x.rob == c && (x.kind == .load && fault == none) else loadCount t q := by
  rw [loadCount, resolveQueue, List.countP_map]
  split
  · rename_i ht
    subst ht
    refine List.countP_congr fun x _ => ?_
    by_cases hx : x.rob = t
    · simp only [Function.comp_apply, if_pos hx, x.startable_resolved, x.resolved_rob, Bool.and_comm]
    · simp [hx]
  · rename_i ht
    refine List.countP_congr fun x _ => ?_
    by_cases hx : x.rob = c
    · have hne : (x.rob == t) = false := by simpa using fun h : x.rob = t => ht (h.symm.trans hx)
      simp only [Function.comp_apply, if_pos hx, x.resolved_rob, hne, Bool.and_false]
    · simp [hx]

theorem RobEntry.resolved_load_none (e : RobEntry) (ea data : Word) : e.resolved .load ea data none = e := rfl

/-- What an LSU unit's resolution makes of an entry (R128): a store's is completed, a load's that raises too. -/
theorem UnitOk.resolved_completes (hT : SeqTrace T) {u : FuUnit} {i : Instr} {kind : LsqKind} (hv : Entries T v)
    (h : UnitOk T v .lsu u i) (hop : i.record.op = if kind = .load then .lw else .sw)
    (hdone : kind = .load → addressFault (T 0).cfg.memSize (effectiveAddress u.a u.imm) ≠ none) :
    Completes T v u.rob i ((v.slot u.rob).resolved kind (effectiveAddress u.a u.imm) u.b
      (addressFault (T 0).cfg.memSize (effectiveAddress u.a u.imm))) := by
  have he := hv _ h.pending.valid
  have hclean := he.clean h.pending.waiting
  have hfor := he.instr i h.pending.instr
  refine ⟨RobEntry.shape_resolved .., ?_, fun _ => ?_, fun hp => ?_⟩
  · cases hk : kind with
    | store => cases addressFault (T 0).cfg.memSize (effectiveAddress u.a u.imm) <;> rfl
    | load =>
      obtain ⟨c, hc⟩ := Option.ne_none_iff_exists'.1 (hdone hk)
      rw [hc]
      rfl
  · cases kind <;> cases addressFault (T 0).cfg.memSize (effectiveAddress u.a u.imm) <;> rfl
  · obtain ⟨ha, hb⟩ := h.operands hp
    have hea : effectiveAddress u.a u.imm = (T (v.num u.rob)).accessAddr i := by rw [State.accessAddr, ha, h.imm]
    have hexec := he.exec hT h.pending.instr hp
    have hshape := RobEntry.sameShape ((v.slot u.rob).shape_resolved kind (effectiveAddress u.a u.imm) u.b
      (addressFault (T 0).cfg.memSize (effectiveAddress u.a u.imm)))
    have hfor' := hfor.of_sameShape hshape
    have hkinds : i.record.op = .lw ∨ i.record.op = .sw := by cases kind <;> simp_all
    cases hfault : addressFault (T 0).cfg.memSize (effectiveAddress u.a u.imm) with
    | some c =>
      refine settled_of_fault hexec hkinds (c := c) (by rw [hT.cfg, ← hea, hfault]) rfl ?_
      exact hea
    | none =>
      have hstore : kind = .store := by
        cases kind with
        | store => rfl
        | load => exact absurd hfault (hdone rfl)
      subst hstore
      rw [hfault] at hfor'
      refine settled_of_sw hexec hop hfor' (by rw [hT.cfg, ← hea, hfault]) hclean hea hb ?_
      exact (he.store i h.pending.instr hop).trans (congrArg nextSequential (he.pc hp))

theorem FlightOk.resolveQueue {c : Nat} {i : Instr} {ea data : Word} (hT : SeqTrace T) (h : FlightOk T v f)
    (hp : Pending T v c i) (hfree : f.places c = 0) (hvals : OnPath T v (v.num c) →
      ea = (T (v.num c)).accessAddr i ∧ data = (T (v.num c)).reg i.record.rs2) :
    FlightOk T v { f with lsq := resolveQueue c ea data (addressFault (T 0).cfg.memSize ea) f.lsq } := by
  refine { h with queue := h.queue.map (fun l => ?_) fun l j _ hl => ?_, once := fun t => ?_ }
  · split
    · exact l.resolved_rob ..
    · rfl
  · split
    · rename_i hc
      subst hc
      obtain rfl : i = j := Option.some.inj (hp.instr.symm.trans hl.holds.instr)
      exact hl.resolved hT hp.waiting hvals
    · exact hl
  · have honce := h.once t
    simp only [Flight.places, loadCount_resolveQueue] at honce hfree ⊢
    split
    · rename_i ht
      subst ht
      have hle := h.queue.countP_rob_le t
      have hmono : (f.lsq.countP fun x => x.rob == t && (x.kind == .load && addressFault (T 0).cfg.memSize ea == none)) ≤
          f.lsq.countP fun x => x.rob == t :=
        List.countP_mono_left fun x _ hx => (Bool.and_eq_true_iff.1 hx).1
      omega
    · exact honce

/-- After a completing resolution no load of the slot may start. -/
theorem Flight.places_resolveQueue {c : Nat} {ea data : Word} {fault : Option Cause} (hfree : f.places c = 0)
    (hno : ∀ l, l ∈ f.lsq → l.rob = c → l.kind = .load → fault ≠ none) :
    Flight.places { f with lsq := Machine.resolveQueue c ea data fault f.lsq } c = 0 := by
  simp only [Flight.places, loadCount_resolveQueue] at hfree ⊢
  have hzero : (f.lsq.countP fun x => x.rob == c && (x.kind == .load && fault == none)) = 0 := by
    refine List.countP_eq_zero.2 fun x hx hcount => ?_
    simp only [Bool.and_eq_true, beq_iff_eq] at hcount
    exact hno x hx hcount.1 hcount.2.1 hcount.2.2
  rw [if_pos trivial, hzero]
  omega

theorem State.resolve_eq {s : State} {u : FuUnit} {l : LsqEntry} (h : s.lsq.find? (fun l => l.rob == u.rob) = some l) :
    (s.resolve u).window = s.window.put u.rob ((s.window.slot u.rob).resolved l.kind (effectiveAddress u.a u.imm) u.b
      (addressFault s.cfg.memSize (effectiveAddress u.a u.imm))) ∧
    (s.resolve u).lsq = Machine.resolveQueue u.rob (effectiveAddress u.a u.imm) u.b
      (addressFault s.cfg.memSize (effectiveAddress u.a u.imm)) s.lsq := by
  rw [State.resolve, h]
  refine ⟨?_, rfl⟩
  simp only [State.window, Window.put, Window.slot, State.updateRob]
  congr 1
  exact updateAt_congr (d := RobEntry.empty) rfl

/-- No operand waits for a store. -/
theorem FlightOk.noneWaits_store {c : Nat} {i : Instr} {ok : Prop} (hv : Entries T v) (h : FlightOk T v f)
    (hp : Pending T v c i) (hop : i.record.op = .sw) : NoneWaits f c ok := by
  have hdest : (v.slot c).dest = none := by
    rw [((hv c hp.valid).instr i hp.instr).dest, destination, hop]
    rfl
  have none : ∀ {t r o}, OperandOk T v t r o → o.ready = false → o.tag = c → ok := by
    intro t r o ho hwait htag
    have hw := (ho.waits hwait).1.dest
    rw [htag, hdest] at hw
    cases hw
  intro k x hx hvalid
  obtain ⟨j, hj⟩ := h.stations k x hx hvalid
  exact ⟨none hj.a, none hj.b⟩

theorem put_slot_self (v : Window) (c : Nat) : v.put c (v.slot c) = v := by
  have hid : updateAt (fun _ => v.slot c) v.rob c = v.rob :=
    (updateAt_congr (f := fun _ => v.slot c) (g := id) (d := RobEntry.empty) rfl).trans (updateAt_id v.rob c)
  rw [Window.put, hid]

/-- An LSU unit that has left the units resolves its address (R128). -/
theorem Engine.resolve (hT : SeqTrace T) {s : State} {u : FuUnit} {i : Instr} (h : Engine T w s.window f)
    (hlsq : f.lsq = s.lsq) (hcfg : s.cfg = (T 0).cfg) (hu : UnitOk T s.window .lsu u i) (hfree : f.places u.rob = 0) :
    Engine T w (s.resolve u).window { f with lsq := (s.resolve u).lsq } := by
  have he := h.entries _ hu.pending.valid
  have hhas : (s.window.slot u.rob).hasLsq = true := by
    rw [(he.instr i hu.pending.instr).hasLsq]
    have := hu.cls
    cases hop : i.record.op <;> simp_all [opClass, isMemory]
  obtain ⟨x, hx, hxrob⟩ := h.flight.queue.complete u.rob hu.pending.valid hhas
  obtain ⟨l, hfind⟩ : ∃ l, s.lsq.find? (fun l => l.rob == u.rob) = some l := by
    rw [← Option.isSome_iff_exists, List.find?_isSome]
    exact ⟨x, hlsq ▸ hx, by simpa using hxrob⟩
  have kinds : ∀ y, y ∈ f.lsq → y.rob = u.rob → i.record.op = if y.kind = .load then .lw else .sw := by
    intro y hy hrob
    obtain ⟨j, hj⟩ := h.flight.queue.entries y hy
    have hsame := hj.holds.instr
    rw [hrob, hu.pending.instr] at hsame
    obtain rfl := Option.some.inj hsame
    exact hj.op
  have hl : i.record.op = if l.kind = .load then .lw else .sw :=
    kinds l (hlsq ▸ List.mem_of_find?_eq_some hfind) (by simpa using List.find?_some hfind)
  have hvals : OnPath T s.window (s.window.num u.rob) →
      effectiveAddress u.a u.imm = (T (s.window.num u.rob)).accessAddr i ∧
        u.b = (T (s.window.num u.rob)).reg i.record.rs2 := by
    intro hp
    obtain ⟨ha, hb⟩ := hu.operands hp
    exact ⟨by rw [State.accessAddr, ha, hu.imm], hb⟩
  obtain ⟨hwindow, hqueue⟩ := State.resolve_eq hfind
  have hmoved : Engine T w s.window { f with lsq := (s.resolve u).lsq } := by
    rw [hqueue, hcfg, ← hlsq]
    exact { h with flight := h.flight.resolveQueue hT hu.pending hfree hvals }
  by_cases hload : l.kind = .load ∧ addressFault s.cfg.memSize (effectiveAddress u.a u.imm) = none
  · rw [hwindow, hload.1, hload.2, RobEntry.resolved_load_none, put_slot_self]
    exact hmoved
  · rw [hwindow]
    have hplaces : Flight.places { f with lsq := (s.resolve u).lsq } u.rob = 0 := by
      rw [hqueue, ← hlsq]
      refine Flight.places_resolveQueue hfree fun y hy hrob hkind hfault => hload ⟨?_, hfault⟩
      have hop := kinds y hy hrob
      rw [if_pos hkind] at hop
      rw [hop] at hl
      by_contra hne
      rw [if_neg hne] at hl
      cases hl
    have hdone : l.kind = .load → addressFault s.cfg.memSize (effectiveAddress u.a u.imm) ≠ none :=
      fun hk hfault => hload ⟨hk, hfault⟩
    have hcompletes := hu.resolved_completes hT h.entries hl (hcfg ▸ hdone)
    rw [← hcfg] at hcompletes
    refine hmoved.complete hu.pending hcompletes hplaces ?_
    cases hk : l.kind with
    | store =>
      rw [hk] at hl
      exact hmoved.flight.noneWaits_store h.entries hu.pending hl
    | load =>
      obtain ⟨c, hc⟩ := Option.ne_none_iff_exists'.1 (hdone hk)
      rw [hc]
      exact fun _ _ _ _ => ⟨fun _ _ => nofun, fun _ _ => nofun⟩

/-! ### The advance step -/

/-- No opcode is of class FPU (R77, R81). -/
theorem opClass_ne_fpu (op : Opcode) : opClass op ≠ some .fpu := by cases op <;> simp [opClass]

theorem Engine.advanceUnit (hT : SeqTrace T) {s : State} (h : Engine T w s.window s.flight) (hcfg : s.cfg = (T 0).cfg)
    (k : FuClass) (j : Nat) : Engine T w (s.advanceUnit k j).window (s.advanceUnit k j).flight := by
  by_cases hbusy : (s.unitAt k j).busy = true
  · have hu := State.getElem?_unitAt hbusy
    obtain ⟨i, hi⟩ := h.flight.units k _ (List.mem_of_getElem? hu) hbusy
    have hticked := FuUnit.ticked_busy hbusy
    have hset := h.flight.setUnit (u' := (s.unitAt k j).ticked) hu hbusy (FuUnit.ticked_rob _)
      fun _ => ⟨i, hi.ticked⟩
    obtain ⟨hfin, hstep⟩ | ⟨-, hstep⟩ | ⟨-, hidle, -⟩ := s.advanceUnit_cases k j
    · have hfree := h.flight.places_of_freed (u' := (s.unitAt k j).ticked) hu hbusy (by rw [hticked, hfin]; rfl)
      rw [hstep]
      cases k with
      | lsu =>
        have hres := Engine.resolve hT (s := s.countBusy .lsu j) { h with flight := hset } rfl hcfg hi hfree
        have hflight : (((s.countBusy .lsu j).finishUnit .lsu (s.unitAt .lsu j)).setUnit .lsu j
            (s.unitAt .lsu j).ticked).flight =
            { s.flight.setUnit .lsu j (s.unitAt .lsu j).ticked with
              lsq := ((s.countBusy .lsu j).resolve (s.unitAt .lsu j)).lsq } := by
          simp [State.flight, Flight.setUnit, State.finishUnit]
        rw [hflight]
        exact hres
      | alu =>
        have hres := hi.result hT h.entries
        rw [← hcfg] at hres
        exact { h with flight := hset.addResult hres hfree }
      | fpu =>
        exact absurd hi.cls (opClass_ne_fpu _)
    · rw [hstep]
      exact { h with flight := hset }
    · rw [hidle] at hbusy
      cases hbusy
  · rw [State.advanceUnit, if_neg hbusy]
    exact h

theorem Engine.advanceClass (hT : SeqTrace T) {s : State} (h : Engine T w s.window s.flight) (hcfg : s.cfg = (T 0).cfg)
    (k : FuClass) : Engine T w (s.advanceClass k).window (s.advanceClass k).flight := by
  suffices loop : ∀ (n j : Nat) (s : State), Engine T w s.window s.flight → s.cfg = (T 0).cfg →
      Engine T w (advanceFrom k n j s).window (advanceFrom k n j s).flight from loop _ _ s h hcfg
  intro n
  induction n with
  | zero => exact fun _ _ h _ => h
  | succ n ih => exact fun j s h hcfg => ih _ _ (h.advanceUnit hT hcfg k j) (by simpa using hcfg)

theorem Engine.advanceStage (hT : SeqTrace T) {s : State} (h : Engine T w s.window s.flight)
    (hcfg : s.cfg = (T 0).cfg) : Engine T w s.advanceStage.window s.advanceStage.flight :=
  have halu : (s.advanceClass .alu).cfg = (T 0).cfg := (advanceFrom_cfg ..).trans hcfg
  have hfpu : ((s.advanceClass .alu).advanceClass .fpu).cfg = (T 0).cfg := (advanceFrom_cfg ..).trans halu
  ((h.advanceClass hT hcfg .alu).advanceClass hT halu .fpu).advanceClass hT hfpu .lsu

end Sys2Proof.Machine
end

section
/-!
SUPPORT. A broadcast completes the entry of its result and wakes the operands that wait for it (R120 to R122).
-/

namespace Sys2Proof.Machine

open Window

variable {T : Nat → State} {w v : Window} {f : Flight}

/-! ### Waking -/

theorem Operand.wake_cases (t : Nat) (x : Word) (o : Operand) :
    o.ready = false ∧ o.tag = t ∧ o.wake t x = { o with ready := true, value := x } ∨
      ¬ (o.ready = false ∧ o.tag = t) ∧ o.wake t x = o := by
  unfold Operand.wake
  split
  · rename_i h
    exact .inl ⟨h.1, h.2, rfl⟩
  · rename_i h
    exact .inr ⟨h, rfl⟩

theorem RsEntry.wake_of_valid (t : Nat) (x : Word) {e : RsEntry} (h : e.valid = true) :
    e.wake t x = { e with a := e.a.wake t x, b := e.b.wake t x } := if_pos h

theorem RsEntry.wake_rob (t : Nat) (x : Word) (e : RsEntry) : (e.wake t x).rob = e.rob := by
  unfold RsEntry.wake
  split <;> rfl

/-- An operand that waits for a completed entry takes its value (R121). -/
theorem OperandOk.wake (hT : SeqTrace T) (hring : v.Ring) (hv : Entries T v) {c t : Nat} {i : Instr} {e : RobEntry}
    {r : Reg} {o : Operand} (hp : Pending T v c i) (he : Completes T v c i e) (hexc : e.exception = none)
    (h : OperandOk T v t r o) (hn : v.num t ≤ v.next) : OperandOk T v t r (o.wake c e.value) := by
  obtain ⟨hwait, rfl, hwake⟩ | ⟨-, hwake⟩ := o.wake_cases c e.value
  · have hsame := hring.sameShape_put hp.valid (RobEntry.sameShape he.shape)
    have hslot := hring.slot_put_self hp.valid e
    rw [hwake]
    refine ⟨fun _ hpath => ?_, nofun⟩
    have hvalue := (hv.put hring hp he).value_of_lastWriter hT (hring.put hsame) (by rw [hsame.next]; exact hn)
      (hsame.onPath_iff.2 hpath) (hsame.lastWriter (h.waits hwait).1) (by rw [hslot]; exact he.completed)
      (by rw [hslot]; exact hexc)
    rw [hslot] at hvalue
    exact hvalue
  · rw [hwake]
    exact h

/-- The records in flight after the operands that wait for `c` have been woken. -/
def Flight.wake (f : Flight) (c : Nat) (x : Word) : Flight :=
  { f with rs := f.rs.map fun l => l.map fun e => e.wake c x }

theorem Flight.places_wake (c : Nat) (x : Word) (t : Nat) : (f.wake c x).places t = f.places t := by
  have hcount : ∀ l : List RsEntry, stationCount t (l.map fun e => e.wake c x) = stationCount t l := fun l => by
    simp only [stationCount, List.countP_map, Function.comp_def, RsEntry.wake_valid, RsEntry.wake_rob]
  simp only [Flight.places, Flight.wake, classTotal, PerClass.map, hcount]

theorem Flight.mem_wake {c : Nat} {x : Word} {k : FuClass} {e : RsEntry} (h : e ∈ (f.wake c x).rs.get k)
    (hvalid : e.valid = true) :
    ∃ y, y ∈ f.rs.get k ∧ y.valid = true ∧ e = { y with a := y.a.wake c x, b := y.b.wake c x } := by
  rw [Flight.wake, PerClass.get_map] at h
  obtain ⟨y, hy, rfl⟩ := List.mem_map.1 h
  rw [RsEntry.wake_valid] at hvalid
  exact ⟨y, hy, hvalid, RsEntry.wake_of_valid c x hvalid⟩

theorem FlightOk.wake (hT : SeqTrace T) (hring : v.Ring) (hv : Entries T v) {c : Nat} {i : Instr} {e : RobEntry}
    (h : FlightOk T v f) (hp : Pending T v c i) (he : Completes T v c i e) (hexc : e.exception = none) :
    FlightOk T v (f.wake c e.value) := by
  refine { h with stations := fun k x hx hvalid => ?_, once := fun t => by rw [Flight.places_wake]; exact h.once t }
  obtain ⟨y, hy, hyv, rfl⟩ := Flight.mem_wake hx hvalid
  obtain ⟨j, hj⟩ := h.stations k y hy hyv
  have hn := (hring.num_lt hj.pending.valid).le
  exact ⟨j,
    { pending := hj.pending, cls := hj.cls, op := hj.op, imm := hj.imm, pc := hj.pc
      a := hj.a.wake hT hring hv hp he hexc hn
      b := hj.b.wake hT hring hv hp he hexc hn }⟩

/-- After the wake no operand waits for the entry. -/
theorem Flight.noneWaits_wake (f : Flight) (c : Nat) (x : Word) {ok : Prop} : NoneWaits (f.wake c x) c ok := by
  have woken : ∀ o : Operand, (o.wake c x).ready = false → (o.wake c x).tag = c → ok := by
    intro o hwait htag
    obtain ⟨-, -, hwake⟩ | ⟨hno, hwake⟩ := o.wake_cases c x <;> rw [hwake] at hwait htag
    · cases hwait
    · exact absurd ⟨hwait, htag⟩ hno
  intro k e he hvalid
  obtain ⟨y, -, -, rfl⟩ := Flight.mem_wake he hvalid
  exact ⟨woken y.a, woken y.b⟩

/-! ### One result -/

theorem ResultOk.completes {r : CdbResult} {i : Instr} (h : ResultOk T v r i) :
    Completes T v r.rob i ((v.slot r.rob).broadcast r) where
  shape := RobEntry.shape_broadcast ..
  completed := by unfold RobEntry.broadcast; split <;> rfl
  store hop := absurd hop h.op
  settled := h.settles

/-- The records in flight after the load that `l` names is done (R120). -/
def Flight.loadDone (f : Flight) (l : Option Nat) : Flight :=
  match l with
  | some t => { f with lsq := setLoadState .done t f.lsq }
  | none => f

theorem Flight.places_loadDone_le (f : Flight) (l : Option Nat) (t : Nat) : (f.loadDone l).places t ≤ f.places t := by
  cases l with
  | none => exact le_refl _
  | some r =>
    simp only [Flight.loadDone, Flight.places, loadCount_setLoadState (st := .done) (by decide)]
    split <;> omega

theorem FlightOk.loadDone (h : FlightOk T v f) (l : Option Nat) : FlightOk T v (f.loadDone l) := by
  have once : ∀ t, (f.loadDone l).places t ≤ 1 := fun t => (f.places_loadDone_le l t).trans (h.once t)
  cases l with
  | none => exact h
  | some r => exact { h with queue := h.queue.setLoadState (by decide) r, once := once }

/-- A result that is taken from the bus was the only place of its instruction. -/
theorem FlightOk.takeResult {r : CdbResult} {l : List CdbResult} (h : FlightOk T v f) (hf : f.cdbq = r :: l) :
    FlightOk T v { f with cdbq := l } ∧ Flight.places { f with cdbq := l } r.rob = 0 := by
  have hplaces : ∀ t, Flight.places { f with cdbq := l } t + (if r.rob = t then 1 else 0) = f.places t := fun t => by
    simp only [Flight.places, resultCount, hf, List.countP_cons, beq_iff_eq]
    omega
  refine ⟨{ h with results := fun x hx => h.results x (hf ▸ List.mem_cons_of_mem r hx), once := fun t => ?_ }, ?_⟩
  · have honce := h.once t
    have := hplaces t
    omega
  · have honce := h.once r.rob
    have := hplaces r.rob
    rw [if_pos rfl] at this
    omega

/-- The records in flight after the broadcast of `r`, the results left being `l` (R120, R122). -/
def Flight.afterBroadcast (f : Flight) (r : CdbResult) (l : List CdbResult) : Flight :=
  match r.exception with
  | some _ => { f with cdbq := l }.loadDone r.lsq
  | none => ({ f with cdbq := l }.loadDone r.lsq).wake r.rob r.value

theorem Engine.broadcast (hT : SeqTrace T) {r : CdbResult} {l : List CdbResult} (h : Engine T w v f)
    (hf : f.cdbq = r :: l) :
    Engine T w (v.put r.rob ((v.slot r.rob).broadcast r)) (f.afterBroadcast r l) := by
  obtain ⟨i, hr⟩ := h.flight.results r (hf ▸ List.mem_cons_self)
  have he := hr.completes
  obtain ⟨htaken, hfree⟩ := h.flight.takeResult hf
  have hdone := htaken.loadDone r.lsq
  have hplaces : (Flight.loadDone { f with cdbq := l } r.lsq).places r.rob = 0 :=
    Nat.le_zero.1 (hfree ▸ Flight.places_loadDone_le _ r.lsq r.rob)
  cases hexc : r.exception with
  | some c =>
    have hraised : ((v.slot r.rob).broadcast r).exception ≠ none := by simp [RobEntry.broadcast, hexc]
    rw [Flight.afterBroadcast, hexc]
    exact Engine.complete { h with flight := hdone } hr.pending he hplaces
      fun _ _ _ _ => ⟨fun _ _ => hraised, fun _ _ => hraised⟩
  | none =>
    have hclean := (h.entries _ hr.pending.valid).clean hr.pending.waiting
    have hnone : ((v.slot r.rob).broadcast r).exception = none := by simp [RobEntry.broadcast, hexc, hclean]
    have hvalue : ((v.slot r.rob).broadcast r).value = r.value := by simp [RobEntry.broadcast, hexc]
    have hwake := hdone.wake hT h.ring h.entries hr.pending he hnone
    rw [hvalue] at hwake
    rw [Flight.afterBroadcast, hexc]
    exact Engine.complete { h with flight := hwake } hr.pending he (by rw [Flight.places_wake]; exact hplaces)
      (Flight.noneWaits_wake _ _ _)

/-! ### The broadcast step -/

theorem State.broadcastOne_window (s : State) (r : CdbResult) :
    (s.broadcastOne r).window = s.window.put r.rob ((s.window.slot r.rob).broadcast r) := by
  simp only [State.window, Window.put, Window.slot, State.broadcastOne_cfg, State.broadcastOne_robHead,
    State.broadcastOne_robCount, State.broadcastOne_metrics, State.broadcastOne_rob]
  congr 1
  exact updateAt_congr (d := RobEntry.empty) rfl

theorem State.broadcastOne_flight (s : State) (r : CdbResult) (l : List CdbResult) :
    { (s.broadcastOne r).flight with cdbq := l } = s.flight.afterBroadcast r l := by
  cases hexc : r.exception <;> cases hl : r.lsq <;>
    simp [State.flight, Flight.afterBroadcast, Flight.loadDone, Flight.wake, State.broadcastOne, State.markLoadDone,
      State.wake, hexc, hl]

theorem Engine.broadcastAll (hT : SeqTrace T) {l : List CdbResult} {s : State}
    (h : Engine T w s.window { s.flight with cdbq := l ++ s.cdbq }) :
    Engine T w (broadcastAll l s).window (Machine.broadcastAll l s).flight := by
  induction l generalizing s with
  | nil => exact h
  | cons r l ih =>
    have hone := h.broadcast hT (r := r) (l := l ++ s.cdbq) rfl
    refine ih ?_
    rw [s.broadcastOne_window, s.broadcastOne_flight, State.broadcastOne_cdbq]
    exact hone

theorem FlightOk.permResults {l : List CdbResult} (h : FlightOk T v f) (hl : l.Perm f.cdbq) :
    FlightOk T v { f with cdbq := l } where
  latch := h.latch
  stations := h.stations
  units := h.units
  results r hr := h.results r (hl.mem_iff.1 hr)
  port := h.port
  queue := h.queue
  once t := by
    have honce := h.once t
    simp only [Flight.places, resultCount, hl.countP_eq] at honce ⊢
    exact honce

theorem Engine.broadcastStage (hT : SeqTrace T) {s : State} (h : Engine T w s.window s.flight) :
    Engine T w s.broadcastStage.window s.broadcastStage.flight := by
  have hperm : ((sortBySeq s.cdbq).take s.cfg.cdbWidth ++ (sortBySeq s.cdbq).drop s.cfg.cdbWidth).Perm s.cdbq := by
    rw [List.take_append_drop]
    exact sortBySeq_perm _
  exact Engine.broadcastAll hT (s := { s with cdbq := (sortBySeq s.cdbq).drop s.cfg.cdbWidth })
    { h with flight := h.flight.permResults hperm }

/-- The execute stage keeps what is known (R116, R120). -/
theorem Engine.executeStage (hT : SeqTrace T) {s : State} (h : Engine T w s.window s.flight)
    (hcfg : s.cfg = (T 0).cfg) : Engine T w s.executeStage.window s.executeStage.flight :=
  (h.selectStage.advanceStage hT (by simpa using hcfg)).broadcastStage hT

end Sys2Proof.Machine
end

section
/-!
SUPPORT. Issue moves a latched record to a station and captures its operands (R95, R96).
-/

namespace Sys2Proof.Machine

open Window

variable {T : Nat → State} {w v : Window} {f : Flight}

/-! ### Capture -/

/-- What an operand captures is what the sequential run has in its register, or its last writer (R96). -/
theorem OperandOk.capture (hT : SeqTrace T) {s : State} (hring : s.window.Ring) (hv : Entries T s.window)
    (hregs : ∀ r, s.reg r = (T s.window.base).reg r) {t : Nat} {r : Reg} {x : Snapshot}
    (ht : (s.window.slot t).valid = true) (h : SnapshotOk s.window t r x) : OperandOk T s.window t r (s.capture x) := by
  have hhi := (hring.num_lt ht).le
  have settled : NoWriter s.window (s.window.num t) r → OnPath T s.window (s.window.num t) →
      s.reg r = (T (s.window.num t)).reg r := fun hw hp => by
    rw [hregs, hv.reg_of_noWriter hT hring (s.window.base_le_num t) hhi hp hw]
  cases x with
  | const0 =>
    obtain rfl : r = 0 := h
    exact ⟨fun _ _ => rfl, nofun⟩
  | arch i =>
    obtain ⟨rfl, hw⟩ := h
    exact ⟨fun _ => settled hw, nofun⟩
  | tag p q i =>
    obtain ⟨rfl, hw⟩ := h
    rw [State.capture]
    split
    · rename_i hthere
      have hlast : LastWriter s.window (s.window.num t) i p := by
        rcases hw with ⟨-, hlast⟩ | ⟨hgone, -⟩
        · exact hlast
        · exact absurd hthere hgone
      split
      · rename_i hdone
        exact ⟨fun _ hp => hv.value_of_lastWriter hT hring hhi hp hlast hdone.1 hdone.2, nofun⟩
      · rename_i hwait
        exact ⟨nofun, fun _ => ⟨hlast, hwait⟩⟩
    · rename_i hgone
      have hnone : NoWriter s.window (s.window.num t) i := by
        rcases hw with ⟨hthere, -⟩ | ⟨-, hnone⟩
        · exact absurd hthere hgone
        · exact hnone
      exact ⟨fun _ => settled hnone, nofun⟩

/-! ### One record -/

/-- A record that needs no unit leaves the latch. -/
theorem FlightOk.skipLatch {d : DecRec} {rest : List DecRec} (h : FlightOk T v f) (hdl : f.dl = d :: rest)
    (hclass : bodyClass d.fetched.body = none) : FlightOk T v { f with dl := rest } := by
  refine { h with latch := fun x hx => h.latch x (hdl ▸ List.mem_cons_of_mem d hx), once := fun t => ?_ }
  have honce := h.once t
  simp only [Flight.places, latchCount, hdl, List.countP_cons, hclass, Option.isSome_none, Bool.false_and,
    Bool.false_eq_true, if_false, Nat.add_zero] at honce ⊢
  exact honce

/-- A record leaves the latch for a free station. -/
theorem FlightOk.toStation {d : DecRec} {rest : List DecRec} {k : FuClass} {j : Nat} {old e : RsEntry} {i : Instr}
    (h : FlightOk T v f) (hdl : f.dl = d :: rest) (hclass : bodyClass d.fetched.body = some k)
    (hold : (f.rs.get k)[j]? = some old) (hfree : old.valid = false) (hrob : e.rob = d.rob) (hvalid : e.valid = true)
    (he : StationOk T v k e i) :
    FlightOk T v { f with dl := rest, rs := f.rs.set k (updateAt (fun _ => e) (f.rs.get k) j) } := by
  refine { h with
    latch := fun x hx => h.latch x (hdl ▸ List.mem_cons_of_mem d hx)
    stations := fun k' x hx hxv => ?_
    once := fun t => ?_ }
  · rw [PerClass.get_set] at hx
    split at hx
    · rename_i hk
      subst hk
      rcases mem_updateAt hx with hx | ⟨y, -, rfl⟩
      · exact h.stations _ x hx hxv
      · exact ⟨i, he⟩
    · exact h.stations k' x hx hxv
  · have honce := h.once t
    have hupd := countP_updateAt (fun x : RsEntry => x.valid && x.rob == t) (fun _ => e) hold
    have htotal := classTotal_set (stationCount t) f.rs k (updateAt (fun _ => e) (f.rs.get k) j)
    simp only [hfree, hvalid, hrob, Bool.true_and, Bool.false_and, Bool.false_eq_true, if_false, Nat.add_zero] at hupd
    simp only [Flight.places, latchCount, stationCount, hdl, List.countP_cons, hclass, Option.isSome_some, Bool.true_and]
      at honce htotal hupd ⊢
    omega

theorem Engine.place (hT : SeqTrace T) {s : State} {d : DecRec} {rest : List DecRec} {r : InstrRecord} {k : FuClass}
    {j : Nat} (h : Engine T w s.window s.flight) (hregs : ∀ r, s.reg r = (T s.window.base).reg r)
    (hdl : s.dl = d :: rest) (hbody : d.fetched.body = some r) (hclass : opClass r.op = some k)
    (hfree : freeStation (s.rs.get k) = some j) :
    Engine T w (s.place d rest r k j).window (s.place d rest r k j).flight := by
  obtain ⟨old, hold, hinvalid⟩ := freeStation_some hfree
  have hin : d ∈ s.dl := hdl ▸ List.mem_cons_self
  obtain ⟨i, hp, rfl, hpc, h1, h2⟩ := h.flight.latch d hin r k hbody hclass
  have he : StationOk T s.window k (s.stationEntry k d i.record) i :=
    { pending := hp, cls := hclass, op := rfl, imm := rfl, pc := hpc
      a := .capture hT h.ring h.entries hregs hp.valid h1
      b := .capture hT h.ring h.entries hregs hp.valid h2 }
  have hbc : bodyClass d.fetched.body = some k := bodyClass_eq_some_iff.2 ⟨_, hbody, hclass⟩
  exact { h with flight := h.flight.toStation hdl hbc hold hinvalid rfl rfl he }

/-! ### The stage -/

/-- The issue stage keeps what is known (R95). -/
theorem Engine.issueStage (hT : SeqTrace T) {s : State} (h : Engine T w s.window s.flight)
    (hregs : ∀ r, s.reg r = (T s.window.base).reg r) :
    Engine T w s.issueStage.window s.issueStage.flight := by
  suffices loop : ∀ (n : Nat) (s : State), Engine T w s.window s.flight → (∀ r, s.reg r = (T s.window.base).reg r) →
      Engine T w (issueLoop n s).window (issueLoop n s).flight from loop _ s h hregs
  intro n
  induction n with
  | zero => exact fun _ h _ => h
  | succ n ih =>
    intro s h hregs
    unfold issueLoop
    split
    · exact h
    · rename_i d rest hdl
      have skip (hclass : bodyClass d.fetched.body = none) : Engine T w (issueLoop n { s with dl := rest }).window
          (issueLoop n { s with dl := rest }).flight :=
        ih _ { h with flight := h.flight.skipLatch hdl hclass } hregs
      split
      · rename_i hbody
        exact skip (by rw [hbody]; rfl)
      · rename_i r hbody
        split
        · rename_i hclass
          exact skip (by rw [hbody]; exact hclass)
        · rename_i k hclass
          split
          · exact h
          · rename_i j hfree
            exact ih _ (h.place hT hregs hdl hbody hclass hfree) hregs

end Sys2Proof.Machine
end

section
/-!
SUPPORT. What an allocation makes of the window and of the records in flight (R91 to R93, R103).
-/

namespace Sys2Proof.Machine

open Window

variable {T : Nat → State} {v v' : Window} {f : Flight}

/-! ### Keeping the records in flight -/

theorem LatchOk.keep {K : Nat → Prop} {d : DecRec} (h : LatchOk T v d) (hk : Keeps T v v' K)
    (hpend : ∀ t i, Pending T v t i → K t)
    (hsnap : ∀ t r, (v.slot t).valid = true → K t →
      (SnapshotOk v t r d.src1 → SnapshotOk v' t r d.src1) ∧ (SnapshotOk v t r d.src2 → SnapshotOk v' t r d.src2)) :
    LatchOk T v' d := by
  intro r k hbody hclass
  obtain ⟨i, hp, hrec, hpc, h1, h2⟩ := h r k hbody hclass
  have ht := hpend _ _ hp
  refine ⟨i, hp.keep hk ht, hrec, by rw [hk.slot _ ht]; exact hpc, ?_, ?_⟩
  · exact (hsnap _ _ hp.valid ht).1 h1
  · exact (hsnap _ _ hp.valid ht).2 h2

/-- The records in flight but for the latch and the queue depend on the pending slots and those they wait for. -/
theorem FlightOk.keep {K : Nat → Prop} {q : List LsqEntry} (h : FlightOk T v f) (hring : v.Ring) (hk : Keeps T v v' K)
    (hpend : ∀ t i, Pending T v t i → K t)
    (htag : ∀ n r p, LastWriter v n r p → ¬ ((v.slot p).completed = true ∧ (v.slot p).exception = none) → K p)
    (latch : ∀ d, d ∈ f.dl → LatchOk T v' d) (queue : QueueOk T v' q)
    (once : ∀ t, Flight.places { f with lsq := q } t ≤ 1) : FlightOk T v' { f with lsq := q } where
  latch := latch
  queue := queue
  once := once
  stations k e he hvalid := by
    obtain ⟨i, hi⟩ := h.stations k e he hvalid
    have ht := hpend _ _ hi.pending
    have hn := (hring.num_lt hi.pending.valid).le
    have htags : ∀ {r o}, OperandOk T v e.rob r o → o.ready = false → K o.tag := fun ho hwait =>
      htag _ _ _ (ho.waits hwait).1 (ho.waits hwait).2
    exact ⟨i,
      { pending := hi.pending.keep hk ht, cls := hi.cls, op := hi.op, imm := hi.imm
        pc := by rw [hk.slot _ ht]; exact hi.pc
        a := hi.a.keep hk ht hn (htags hi.a)
        b := hi.b.keep hk ht hn (htags hi.b) }⟩
  units k u hu hbusy := by
    obtain ⟨i, hi⟩ := h.units k u hu hbusy
    exact ⟨i, hi.keep hk (hpend _ _ hi.pending) (hring.num_lt hi.pending.valid).le⟩
  results r hr := by
    obtain ⟨i, hi⟩ := h.results r hr
    exact ⟨i, hi.keep hk (hpend _ _ hi.pending) (hring.num_lt hi.pending.valid).le⟩
  port hbusy := by
    obtain ⟨i, hi⟩ := h.port hbusy
    exact ⟨i, hi.keep hk (hpend _ _ hi.pending) (hring.num_lt hi.pending.valid).le⟩

/-! ### Fetched records -/

/-- A fetched record is the one of the instruction its pc names, or a fetch fault record if it names none (R102, R103). -/
def FetchRec.BodyOk (T : Nat → State) (f : FetchRec) : Prop := f.body = ((T 0).instrAt f.pc).map Instr.record

theorem FetchRec.BodyOk.of_some {f : FetchRec} {i : Instr} (h : f.BodyOk T) (hi : (T 0).instrAt f.pc = some i) :
    f.body = some i.record := by
  rw [h, hi]
  rfl

theorem FetchRec.BodyOk.of_none {f : FetchRec} (h : f.BodyOk T) (hi : (T 0).instrAt f.pc = none) : f.body = none := by
  rw [h, hi]
  rfl

theorem FetchRec.BodyOk.instr {f : FetchRec} {r : InstrRecord} (h : f.BodyOk T) (hr : f.body = some r) :
    ∃ i, (T 0).instrAt f.pc = some i ∧ i.record = r := by
  rw [h] at hr
  obtain ⟨i, hi, rfl⟩ := Option.map_eq_some_iff.1 hr
  exact ⟨i, hi, rfl⟩

/-! ### The new entry -/

theorem newRobEntry_for {f : FetchRec} {i : Instr} (h : f.body = some i.record) (seq : Nat) :
    (newRobEntry f seq).For i := by
  constructor <;> simp [newRobEntry, h, bodyDest, bodyIs]

/-- The numbers of the slots after an allocation are those before it. -/
theorem num_push (v : Window) (e : RobEntry) (t : Nat) : (v.push e).num t = v.num t := rfl

theorem next_push (v : Window) (e : RobEntry) : (v.push e).next = v.next + 1 := rfl

theorem EntryOk.push (hT : SeqTrace T) (hring : v.Ring) (hroom : v.count < v.cap) {f : FetchRec} (hbody : f.BodyOk T)
    (hpc : OnPath T v v.next → f.pc = (T v.next).archPc) (seq : Nat) :
    EntryOk T (v.push (newRobEntry f seq)) v.tail := by
  have hk := hring.keeps_push (T := T) hroom (newRobEntry f seq)
  have hpath := hk.path v.next (le_refl _)
  constructor <;> rw [hring.slot_push_tail]
  case pc =>
    rw [num_push, hring.num_tail hroom]
    exact fun hp => hpc (hpath hp)
  case fault =>
    intro hi
    rw [newRobEntry_of_fault (hbody.of_none hi)]
    exact ⟨rfl, rfl, rfl⟩
  case instr => exact fun i hi => newRobEntry_for (hbody.of_some hi) seq
  case decode =>
    intro i hi hdec
    have hb : f.body = some i.record := hbody.of_some hi
    simp [newRobEntry, hb, bodyIs, hdec]
  case clean =>
    intro hwait
    cases hb : f.body with
    | none => simp [newRobEntry, hb] at hwait
    | some r => simp [newRobEntry, hb]
  case store => exact fun i hi hop => rfl
  case settled =>
    rw [num_push, hring.num_tail hroom]
    intro hdone hexit hp
    have hpc := hpc (hpath hp)
    cases hi : (T 0).instrAt f.pc with
    | none =>
      have hb := hbody.of_none hi
      refine Settled.of_exception (c := .fetchFault) (by simp [newRobEntry, hb]) ?_
      have haddr : (newRobEntry f seq).excAddr = (T v.next).archPc := by simp [newRobEntry, hb, hpc]
      rw [haddr]
      exact hT.fetchFault (hpc ▸ hi)
    | some i =>
      have hb := hbody.of_some hi
      have hdec : completesAtDecode i.record.op = true := by simpa [newRobEntry, hb, bodyIs] using hdone
      refine settled_of_decode (hT.exec (hpc ▸ hi)) hdec (newRobEntry_for hb seq) (by simp [newRobEntry, hb]) ?_ hexit
      exact congrArg nextSequential hpc

theorem Entries.push (hT : SeqTrace T) (hring : v.Ring) (hroom : v.count < v.cap) (hv : Entries T v) {f : FetchRec}
    (hbody : f.BodyOk T) (hpc : OnPath T v v.next → f.pc = (T v.next).archPc) (seq : Nat) :
    Entries T (v.push (newRobEntry f seq)) := by
  intro t ht
  rcases of_valid_push ht with rfl | ⟨-, hvalid, -⟩
  · exact .push hT hring hroom hbody hpc seq
  · exact (hv t hvalid).keep (hring.keeps_push hroom _) hvalid (hring.num_lt hvalid).le

/-! ### The queue -/

theorem QueueOk.push (hring : v.Ring) (hroom : v.count < v.cap) {q : List LsqEntry} (h : QueueOk T v q) {f : FetchRec}
    (hbody : f.BodyOk T) (seq : Nat) :
    QueueOk T (v.push (newRobEntry f seq)) (if bodyIs isMemory f.body then
      q ++ [newLsqEntry (if bodyIs (· == .lw) f.body then .load else .store) seq v.tail] else q) := by
  have hk := hring.keeps_push (T := T) hroom (newRobEntry f seq)
  have hslot := hring.slot_push_tail (newRobEntry f seq)
  have old : ∀ l, l ∈ q → ∃ i, QueuedOk T (v.push (newRobEntry f seq)) l i := fun l hl => by
    obtain ⟨i, hi⟩ := h.entries l hl
    exact ⟨i, hi.keep hk hi.holds.valid (hring.num_lt hi.holds.valid).le⟩
  have keptComplete : ∀ t, t ≠ v.tail → ((v.push (newRobEntry f seq)).slot t).valid = true →
      ((v.push (newRobEntry f seq)).slot t).hasLsq = true → ∃ l, l ∈ q ∧ l.rob = t := fun t hne ht hlsq => by
    rw [slot_push_of_ne _ hne] at ht hlsq
    exact h.complete t ht hlsq
  split
  · rename_i hmem
    obtain ⟨i, hi, hrec⟩ : ∃ i, (T 0).instrAt f.pc = some i ∧ f.body = some i.record := by
      cases hb : f.body with
      | none => rw [hb] at hmem; cases hmem
      | some r =>
        obtain ⟨i, hi, rfl⟩ := hbody.instr hb
        exact ⟨i, hi, rfl⟩
    have hop : i.record.op = .lw ∨ i.record.op = .sw := by
      rw [hrec] at hmem
      simpa [bodyIs, isMemory_eq] using hmem
    have hnew : QueuedOk T (v.push (newRobEntry f seq))
        (newLsqEntry (if bodyIs (· == .lw) f.body then .load else .store) seq v.tail) i :=
      { holds := ⟨congrArg RobEntry.valid hslot, (congrArg (fun e => (T 0).instrAt e.pc) hslot).trans hi⟩
        op := by rcases hop with hop | hop <;> simp [newLsqEntry, hrec, bodyIs, hop]
        load := fun hs => by simp [LsqEntry.startable, newLsqEntry] at hs
        store := fun _ => nofun }
    refine ⟨?_, fun l hl => ?_, fun t ht hlsq => ?_⟩
    · rw [List.map_append, List.pairwise_append]
      refine ⟨h.sorted, List.pairwise_singleton _ _, fun a ha b hb => ?_⟩
      obtain ⟨l, hl, rfl⟩ := List.mem_map.1 ha
      obtain ⟨j, hj⟩ := h.entries l hl
      obtain rfl : b = v.num v.tail := List.mem_singleton.1 hb
      rw [hring.num_tail hroom]
      exact hring.num_lt hj.holds.valid
    · rcases List.mem_append.1 hl with hl | hl
      · exact old l hl
      · obtain rfl := List.mem_singleton.1 hl
        exact ⟨i, hnew⟩
    · by_cases hne : t = v.tail
      · exact ⟨_, List.mem_append_right _ (List.mem_singleton_self _), hne.symm⟩
      · obtain ⟨l, hl, hrob⟩ := keptComplete t hne ht hlsq
        exact ⟨l, List.mem_append_left _ hl, hrob⟩
  · rename_i hmem
    refine ⟨h.sorted, old, fun t ht hlsq => ?_⟩
    by_cases hne : t = v.tail
    · rw [hne, hslot] at hlsq
      exact absurd hlsq hmem
    · exact keptComplete t hne ht hlsq

/-- A new queue entry has no address yet. -/
theorem loadCount_push (t : Nat) (q : List LsqEntry) (b : Prop) [Decidable b] (kind : LsqKind) (seq rob : Nat) :
    loadCount t (if b then q ++ [newLsqEntry kind seq rob] else q) = loadCount t q := by
  have hnew : (newLsqEntry kind seq rob).startable = false := by simp [LsqEntry.startable, newLsqEntry]
  split
  · simp [loadCount, List.countP_append, hnew]
  · rfl

/-! ### Fresh snapshots -/

/-- The entry a snapshot names is in the window. -/
def SnapFresh (v : Window) (x : Snapshot) : Prop :=
  match x with
  | .tag p q _ => (v.slot p).valid = true ∧ (v.slot p).seq = q
  | .const0 | .arch _ => True

theorem SnapFresh.push (hring : v.Ring) (hroom : v.count < v.cap) {x : Snapshot} (h : SnapFresh v x) (e : RobEntry) :
    SnapFresh (v.push e) x := by
  cases x with
  | const0 | arch i => trivial
  | tag p q i =>
    obtain ⟨hvalid, hseq⟩ := h
    rw [SnapFresh, slot_push_of_ne e (hring.ne_tail hroom hvalid)]
    exact ⟨hvalid, hseq⟩

/-- A fresh snapshot stays right when an entry is appended. -/
theorem SnapshotOk.push (hring : v.Ring) (hroom : v.count < v.cap) {t : Nat} {r : Reg} {x : Snapshot}
    (h : SnapshotOk v t r x) (hfresh : SnapFresh v x) (hn : v.num t ≤ v.next) (e : RobEntry) :
    SnapshotOk (v.push e) t r x := by
  -- any run will do: only what is kept of the writers is used
  have hk := hring.keeps_push (T := fun _ => State.reset) hroom e
  cases x with
  | const0 => exact h
  | arch i =>
    obtain ⟨rfl, hw⟩ := h
    exact ⟨rfl, hk.none _ _ hn hw⟩
  | tag p q i =>
    obtain ⟨rfl, hw⟩ := h
    rcases hw with ⟨-, hw⟩ | ⟨hgone, -⟩
    · exact ⟨rfl, .inl ⟨hfresh.push hring hroom e, hk.last _ _ _ hn hw.valid hw⟩⟩
    · exact absurd hfresh hgone

/-! ### The latch -/

theorem FlightOk.push (hring : v.Ring) (hroom : v.count < v.cap) (h : FlightOk T v f) {r : FetchRec} {seq : Nat} {d : DecRec}
    (hbody : r.BodyOk T) (hfresh : ∀ x, x ∈ f.dl → SnapFresh v x.src1 ∧ SnapFresh v x.src2)
    (hd : LatchOk T (v.push (newRobEntry r seq)) d) (hrob : d.rob = v.tail) :
    FlightOk T (v.push (newRobEntry r seq)) { f with
      dl := f.dl ++ [d]
      lsq := if bodyIs isMemory r.body then
        f.lsq ++ [newLsqEntry (if bodyIs (· == .lw) r.body then .load else .store) seq v.tail] else f.lsq } := by
  have hk := hring.keeps_push (T := T) hroom (newRobEntry r seq)
  have hkept := h.keep hring hk (fun t i hp => hp.valid) (fun n r p hw _ => hw.valid)
    (fun x hx => (h.latch x hx).keep hk (fun t i hp => hp.valid) fun t r ht _ =>
      ⟨fun hs => hs.push hring hroom (hfresh x hx).1 (hring.num_lt ht).le _,
        fun hs => hs.push hring hroom (hfresh x hx).2 (hring.num_lt ht).le _⟩)
    (h.queue.push hring hroom hbody seq)
    (fun t => by
      have honce := h.once t
      simp only [Flight.places, loadCount_push] at honce ⊢
      exact honce)
  refine { hkept with latch := fun x hx => ?_, once := fun t => ?_ }
  · rcases List.mem_append.1 hx with hx | hx
    · exact hkept.latch x hx
    · obtain rfl := List.mem_singleton.1 hx
      exact hd
  · have honce := h.once t
    have htail := h.places_of_invalid (hring.tail_invalid hroom)
    simp only [Flight.places, loadCount_push, latchCount, List.countP_append, List.countP_singleton, hrob]
      at honce htail ⊢
    by_cases ht : v.tail = t
    · subst ht
      split <;> omega
    · rw [if_neg (by simp [ht])]
      omega

end Sys2Proof.Machine
end

section
/-!
SUPPORT. The invariant of the simulation of R99, and the decode stage (R90 to R93).
-/

namespace Sys2Proof.Machine

open Window

variable {T : Nat → State}

/-! ### The invariant -/

/-- The architectural state is that of the sequential run after as many instructions as have been committed. -/
structure ArchOk (T : Nat → State) (s : State) : Prop where
  cfg : s.cfg = (T 0).cfg
  imem : s.imem = (T 0).imem
  archPc : s.archPc = (T s.window.base).archPc
  regs : ∀ r, s.reg r = (T s.window.base).reg r
  mem : s.mem = (T s.window.base).mem
  before : ∀ m, m < s.window.base → (T m).outcome = .running

/-- The rename map names the last writer in flight of each register (R30, R93). -/
structure MapOk (s : State) : Prop where
  ready : ∀ r, (s.regEntry r).ready = true → NoWriter s.window s.window.next r
  named : ∀ r, (s.regEntry r).ready = false → LastWriter s.window s.window.next r (s.regEntry r).tag

/-- The records of the fetch buffer follow one another from pc `p`, and the pc after the last is `q`. -/
def FetchPath : Word → List FetchRec → Word → Prop
  | p, [], q => p = q
  | p, f :: fb, q => f.pc = p ∧ FetchPath f.fetchedNextPc fb q

/-- The fetch buffer holds the records at pc `p` and the pcs predicted after it, and fetch goes on behind them. -/
structure FetchOk (T : Nat → State) (p : Word) (s : State) : Prop where
  bodies : ∀ f, f ∈ s.fb → f.BodyOk T
  path : ∃ q, FetchPath p s.fb q ∧ (s.fetch.blocked = false → s.fetch.pc = q)

/-- The fetch buffer starts at the pc the sequential run has after the instructions in flight, if they are on its path. -/
def FrontOk (T : Nat → State) (s : State) : Prop :=
  ∃ p, (OnPath T s.window s.window.next → p = (T s.window.next).archPc) ∧ FetchOk T p s

/-- The invariant but for the fetch buffer. -/
structure Inflight (T : Nat → State) (s : State) : Prop where
  arch : ArchOk T s
  running : (T s.window.base).outcome = .running
  tail : s.robTail = s.window.tail
  map : MapOk s
  engine : Engine T s.window s.window s.flight

/-- The invariant: the pipeline state `s` against the sequential run `T`. -/
structure Sim (T : Nat → State) (s : State) : Prop extends Inflight T s where
  front : FrontOk T s

theorem Inflight.robRing {s : State} (h : Inflight T s) : RobRing s where
  size := h.engine.ring.size
  head := h.engine.ring.head
  count := h.engine.ring.count
  tail := h.tail
  valid t ht := (h.engine.ring.valid t ht).trans (Nat.add_lt_add_iff_left (k := s.metrics.instructionsCommitted))

/-! ### What the invariant depends on -/

theorem MapOk.of_sameShape {s t : State} (h : MapOk s) (hrf : t.rf = s.rf) (hw : SameShape s.window t.window) :
    MapOk t where
  ready r hr := by
    rw [State.regEntry_congr hrf] at hr
    rw [hw.next]
    exact hw.noWriter (h.ready r hr)
  named r hr := by
    rw [State.regEntry_congr hrf] at hr ⊢
    rw [hw.next]
    exact hw.lastWriter (h.named r hr)

theorem FrontOk.of_sameShape {s t : State} (h : FrontOk T s) (hfb : t.fb = s.fb) (hfetch : t.fetch = s.fetch)
    (hw : SameShape s.window t.window) : FrontOk T t := by
  obtain ⟨p, hp, bodies, path⟩ := h
  refine ⟨p, by rw [hw.next, hw.onPath_iff]; exact hp, ?_⟩
  constructor <;> rw [hfb]
  · exact bodies
  · rw [hfetch]
    exact path

/-- What the stages but commit leave alone of the architectural part. -/
theorem ArchOk.of_sameArch {s t : State} (h : ArchOk T s) (hcfg : t.cfg = s.cfg) (himem : t.imem = s.imem)
    (hmem : t.mem = s.mem) (harch : SameArch s t) (hbase : t.window.base = s.window.base) : ArchOk T t where
  cfg := hcfg.trans h.cfg
  imem := himem.trans h.imem
  archPc := by rw [harch.pc, hbase, h.archPc]
  regs r := by rw [harch.regs, hbase, h.regs]
  mem := by rw [hmem, hbase, h.mem]
  before := by rw [hbase]; exact h.before

/-- A stage that leaves registers, memory and the rename map alone. -/
theorem Inflight.of_engine {s t : State} (h : Inflight T s) (hcfg : t.cfg = s.cfg) (himem : t.imem = s.imem)
    (hmem : t.mem = s.mem) (hrf : t.rf = s.rf) (harch : SameArch s t) (htail : t.robTail = s.robTail)
    (he : Engine T s.window t.window t.flight) : Inflight T t where
  arch := h.arch.of_sameArch hcfg himem hmem harch he.shape.base
  running := by rw [he.shape.base]; exact h.running
  tail := by
    rw [htail, h.tail, Window.tail, Window.tail, he.shape.cap, he.shape.head, he.shape.count]
  map := h.map.of_sameShape hrf he.shape
  engine := { he with shape := .refl _ }

/-- A stage of the engine, which leaves registers, memory, the rename map and fetch alone. -/
theorem Sim.of_engine {s t : State} (h : Sim T s) (hcfg : t.cfg = s.cfg) (himem : t.imem = s.imem) (hmem : t.mem = s.mem)
    (hrf : t.rf = s.rf) (harch : SameArch s t) (htail : t.robTail = s.robTail) (hfb : t.fb = s.fb)
    (hfetch : t.fetch = s.fetch) (he : Engine T s.window t.window t.flight) : Sim T t where
  toInflight := h.toInflight.of_engine hcfg himem hmem hrf harch htail he
  front := h.front.of_sameShape hfb hfetch he.shape

theorem Sim.memoryStage (hT : SeqTrace T) {s : State} (h : Sim T s) : Sim T s.memoryStage :=
  h.of_engine (by simp) (by simp) (by simp) (by simp) s.sameArch_memoryStage (by simp) (by simp) (by simp)
    (h.engine.memoryStage hT h.arch.cfg h.arch.mem)

theorem Sim.executeStage (hT : SeqTrace T) {s : State} (h : Sim T s) : Sim T s.executeStage :=
  h.of_engine (by simp) (by simp) (by simp) (by simp) s.sameArch_executeStage (by simp) (by simp) (by simp)
    (h.engine.executeStage hT h.arch.cfg)

theorem Sim.issueStage (hT : SeqTrace T) {s : State} (h : Sim T s) : Sim T s.issueStage :=
  h.of_engine (by simp) (by simp) (by simp) (by simp) s.sameArch_issueStage (by simp) (by simp) (by simp)
    (h.engine.issueStage hT h.arch.regs)

/-! ### The rename map and an allocation -/

section Push

variable {v : Window} {e : RobEntry} {r : Reg}

theorem Window.noWriter_push (hring : v.Ring) (hw : NoWriter v v.next r) (hd : e.dest ≠ some r) :
    NoWriter (v.push e) (v.next + 1) r := by
  intro t ht _
  rcases of_valid_push ht with rfl | ⟨-, hvalid, hslot⟩
  · rw [hring.slot_push_tail]
    exact hd
  · rw [hslot]
    exact hw t hvalid (hring.num_lt hvalid)

theorem Window.lastWriter_push (hring : v.Ring) (hroom : v.count < v.cap) {p : Nat} (hw : LastWriter v v.next r p)
    (hd : e.dest ≠ some r) : LastWriter (v.push e) (v.next + 1) r p where
  valid := by rw [slot_push_of_ne e (hring.ne_tail hroom hw.valid)]; exact hw.valid
  before := Nat.lt_succ_of_lt hw.before
  dest := by rw [slot_push_of_ne e (hring.ne_tail hroom hw.valid)]; exact hw.dest
  last t ht hlo _ := by
    rcases of_valid_push ht with rfl | ⟨-, hvalid, hslot⟩
    · rw [hring.slot_push_tail]
      exact hd
    · rw [hslot]
      exact hw.last t hvalid hlo (hring.num_lt hvalid)

theorem Window.lastWriter_push_tail (hring : v.Ring) (hroom : v.count < v.cap) (hvalid : e.valid = true)
    (hd : e.dest = some r) : LastWriter (v.push e) (v.next + 1) r v.tail where
  valid := by rw [hring.slot_push_tail]; exact hvalid
  before := by rw [num_push, hring.num_tail hroom]; exact Nat.lt_succ_self _
  dest := by rw [hring.slot_push_tail]; exact hd
  last t _ hlo hhi := by
    rw [num_push, num_push, hring.num_tail hroom] at hlo
    rw [num_push] at hhi
    omega

end Push

theorem MapOk.tailUnnamed {s : State} (h : MapOk s) (hring : RobRing s) (hroom : s.robCount < s.cfg.robCap) :
    s.TailUnnamed := by
  intro r hr htag
  have hvalid : (s.robAt (s.regEntry r).tag).valid = true := (h.named r hr).valid
  rw [htag, hring.tail_invalid hroom] at hvalid
  cases hvalid

theorem bodyDest_ne_zero {b : Option InstrRecord} {r : Reg} (h : bodyDest b = some r) : r ≠ 0 := by
  cases b with
  | none => cases h
  | some x => exact destination_ne_zero h

theorem MapOk.allocate {s : State} (h : MapOk s) (hring : RobRing s) (hroom : s.robCount < s.cfg.robCap)
    (f : FetchRec) : MapOk (s.allocate f) := by
  have hv : s.window.Ring := ring_of_robRing hring
  have htail : s.robTail = s.window.tail := hring.tail
  constructor <;> intro r hr <;> rw [window_allocate hring, next_push]
  · rw [s.regEntry_allocate] at hr
    split at hr
    · cases hr
    · rename_i hd
      exact noWriter_push hv (h.ready r hr) fun hdest => hd ⟨hdest, bodyDest_ne_zero hdest⟩
  · rw [s.regEntry_allocate] at hr ⊢
    split
    · rename_i hd
      rw [htail]
      exact lastWriter_push_tail hv hroom rfl hd.1
    · rename_i hd
      rw [if_neg hd] at hr
      exact lastWriter_push hv hroom (h.named r hr) fun hdest => hd ⟨hdest, bodyDest_ne_zero hdest⟩

/-! ### The snapshots of a new record -/

/-- A snapshot taken before the rename is right for the new entry (R92). -/
theorem MapOk.snap {s : State} (h : MapOk s) (hring : RobRing s) (hroom : s.robCount < s.cfg.robCap) (e : RobEntry)
    (r : Reg) : SnapshotOk (s.window.push e) s.window.tail r (s.snap r) ∧ SnapFresh (s.window.push e) (s.snap r) := by
  have hv : s.window.Ring := ring_of_robRing hring
  -- any run will do: only what is kept of the writers is used
  have hk := hv.keeps_push (T := fun _ => State.reset) hroom e
  have hnum : (s.window.push e).num s.window.tail = s.window.next := hv.num_tail hroom
  unfold State.snap
  split
  · rename_i hr
    exact ⟨hr, trivial⟩
  · split
    · rename_i hready
      exact ⟨⟨rfl, by rw [hnum]; exact hk.none _ _ (le_refl _) (h.ready r hready)⟩, trivial⟩
    · rename_i hready
      have hw := h.named r (by simpa using hready)
      have hslot := slot_push_of_ne e (hv.ne_tail hroom hw.valid)
      have hthere : ((s.window.push e).slot (s.regEntry r).tag).valid = true ∧
          ((s.window.push e).slot (s.regEntry r).tag).seq = (s.robAt (s.regEntry r).tag).seq := by
        rw [hslot]
        exact ⟨hw.valid, rfl⟩
      exact ⟨⟨rfl, .inl ⟨hthere, by rw [hnum]; exact hk.last _ _ _ (le_refl _) hw.valid hw⟩⟩, hthere⟩

theorem record_rs1_of_not_reads {i : Instr} (h : ¬ readsRs1 i.record.op = true) : i.record.rs1 = 0 := by
  cases i <;> simp [Instr.record, readsRs1] at h ⊢

theorem record_rs2_of_not_reads {i : Instr} (h : ¬ readsRs2 i.record.op = true) : i.record.rs2 = 0 := by
  cases i <;> simp [Instr.record, readsRs2] at h ⊢

theorem MapOk.snap1 {s : State} (h : MapOk s) (hring : RobRing s) (hroom : s.robCount < s.cfg.robCap) (e : RobEntry)
    (i : Instr) : SnapshotOk (s.window.push e) s.window.tail i.record.rs1 (s.snap1 (some i.record)) ∧
      SnapFresh (s.window.push e) (s.snap1 (some i.record)) := by
  unfold State.snap1
  dsimp only
  split
  · exact h.snap hring hroom e _
  · rename_i hno
    exact ⟨record_rs1_of_not_reads hno, trivial⟩

theorem MapOk.snap2 {s : State} (h : MapOk s) (hring : RobRing s) (hroom : s.robCount < s.cfg.robCap) (e : RobEntry)
    (i : Instr) : SnapshotOk (s.window.push e) s.window.tail i.record.rs2 (s.snap2 (some i.record)) ∧
      SnapFresh (s.window.push e) (s.snap2 (some i.record)) := by
  unfold State.snap2
  dsimp only
  split
  · exact h.snap hring hroom e _
  · rename_i hno
    exact ⟨record_rs2_of_not_reads hno, trivial⟩

/-! ### Decode takes a record -/

/-- The latched records of this tick name entries of the window. -/
def LatchFresh (s : State) : Prop := ∀ d, d ∈ s.dl → SnapFresh s.window d.src1 ∧ SnapFresh s.window d.src2

/-- The record that decode latches. -/
def State.newDecRec (s : State) (f : FetchRec) : DecRec :=
  ⟨f, s.seqNext, s.robTail, s.snap1 f.body, s.snap2 f.body⟩

theorem MapOk.newDecRec_fresh {s : State} (h : MapOk s) (hring : RobRing s) (hroom : s.robCount < s.cfg.robCap)
    {f : FetchRec} (hbody : f.BodyOk T) (e : RobEntry) :
    SnapFresh (s.window.push e) (s.newDecRec f).src1 ∧ SnapFresh (s.window.push e) (s.newDecRec f).src2 := by
  unfold State.newDecRec
  cases hb : f.body with
  | none => exact ⟨trivial, trivial⟩
  | some r =>
    obtain ⟨i, -, rfl⟩ := hbody.instr hb
    exact ⟨(h.snap1 hring hroom e i).2, (h.snap2 hring hroom e i).2⟩

theorem MapOk.newDecRec_ok {s : State} (h : MapOk s) (hring : RobRing s) (hroom : s.robCount < s.cfg.robCap)
    {f : FetchRec} (hbody : f.BodyOk T) :
    LatchOk T (s.window.push (newRobEntry f s.seqNext)) (s.newDecRec f) := by
  intro r k hr hclass
  have hr : f.body = some r := hr
  obtain ⟨i, hi, rfl⟩ := hbody.instr hr
  have htail : (s.newDecRec f).rob = s.window.tail := hring.tail
  have hslot := (ring_of_robRing hring).slot_push_tail (newRobEntry f s.seqNext)
  have hdec : completesAtDecode i.record.op = false := by cases hop : i.record.op <;> simp_all [opClass, completesAtDecode]
  have h1 : (s.newDecRec f).src1 = s.snap1 (some i.record) := congrArg s.snap1 hr
  have h2 : (s.newDecRec f).src2 = s.snap2 (some i.record) := congrArg s.snap2 hr
  rw [htail, h1, h2]
  refine ⟨i, ⟨⟨?_, ?_⟩, ?_⟩, rfl, ?_, (h.snap1 hring hroom _ i).1, (h.snap2 hring hroom _ i).1⟩ <;> rw [hslot]
  · rfl
  · exact hi
  · simp [newRobEntry, hr, bodyIs, hdec]
  · rfl

theorem ArchOk.allocate {s : State} (h : ArchOk T s) (f : FetchRec) : ArchOk T (s.allocate f) := by
  refine h.of_sameArch (by simp) (by simp) (by simp) ⟨s.reg_allocate f, fun a => ?_, by simp⟩ (by simp [State.window])
  rw [State.readByte, State.allocate_mem]
  rfl

/-- The buffer after decode has taken its first record into the window. -/
theorem FrontOk.take {s t : State} {f : FetchRec} {e : RobEntry} (h : FrontOk T s) (hring : s.window.Ring)
    (hroom : s.window.count < s.window.cap) (hfb : s.fb = f :: t.fb) (hfetch : t.fetch = s.fetch)
    (hwindow : t.window = s.window.push e) (hvalid : e.valid = true) (hnext : e.fetchedNextPc = f.fetchedNextPc) :
    FrontOk T t := by
  obtain ⟨p, -, bodies, q, hpath, hpc⟩ := h
  rw [hfb] at hpath
  refine ⟨f.fetchedNextPc, fun hp => ?_, fun g hg => bodies g (hfb ▸ List.mem_cons_of_mem f hg), q, hpath.2,
    by rw [hfetch]; exact hpc⟩
  have hstep := hp s.window.tail
  rw [hwindow, next_push, hring.slot_push_tail, num_push, hring.num_tail hroom] at hstep
  rw [hwindow, next_push, ← hnext]
  exact hstep hvalid (Nat.lt_succ_self _)

/-- The record at the head of the buffer is the next of the sequential run, if the instructions in flight are on its path. -/
theorem FrontOk.head {s : State} {f : FetchRec} {rest : List FetchRec} (h : FrontOk T s) (hfb : s.fb = f :: rest) :
    f.BodyOk T ∧ (OnPath T s.window s.window.next → f.pc = (T s.window.next).archPc) := by
  obtain ⟨p, hp, bodies, q, hpath, -⟩ := h
  rw [hfb] at hpath
  exact ⟨bodies f (hfb ▸ List.mem_cons_self), fun hon => hpath.1.trans (hp hon)⟩

/-- The invariant but for the buffer does not depend on it. -/
theorem Inflight.setFb {s : State} (h : Inflight T s) (fb : List FetchRec) : Inflight T { s with fb := fb } :=
  ⟨⟨h.arch.cfg, h.arch.imem, h.arch.archPc, h.arch.regs, h.arch.mem, h.arch.before⟩, h.running, h.tail,
    ⟨h.map.ready, h.map.named⟩, h.engine⟩

/-- An allocation keeps the invariant (R91). -/
theorem Inflight.allocate (hT : SeqTrace T) {s : State} {f : FetchRec} (h : Inflight T s) (hfresh : LatchFresh s)
    (hroom : s.robCount < s.cfg.robCap) (hbody : f.BodyOk T)
    (hpc : OnPath T s.window s.window.next → f.pc = (T s.window.next).archPc) :
    Inflight T (s.allocate f) ∧ LatchFresh (s.allocate f) := by
  have hring := h.robRing
  obtain ⟨harch, hrunning, htail, hmap, hengine⟩ := h
  have hring' := hring.allocate f hroom
  have hv := hengine.ring
  have hwindow := window_allocate hring f
  have hdl : (s.allocate f).dl = s.dl ++ [s.newDecRec f] := State.allocate_dl_eq (hmap.tailUnnamed hring hroom) f
  have hflight : (s.allocate f).flight = { s.flight with
      dl := s.dl ++ [s.newDecRec f]
      lsq := if bodyIs isMemory f.body then
        s.lsq ++ [newLsqEntry (if bodyIs (· == .lw) f.body then .load else .store) s.seqNext s.window.tail]
        else s.lsq } := by
    simp [State.flight, hdl, State.allocate_lsq, htail]
  have hpush := hengine.flight.push hv hroom hbody hfresh (hmap.newDecRec_ok hring hroom hbody) htail
  have hbase : (s.allocate f).window.base = s.window.base := by simp [State.window]
  refine ⟨⟨harch.allocate f, by rw [hbase]; exact hrunning, hring'.tail, hmap.allocate hring hroom f, ?_⟩, fun d hd => ?_⟩
  · rw [hflight]
    refine ⟨.refl _, ring_of_robRing hring', ?_, ?_⟩ <;> rw [hwindow]
    · exact hengine.entries.push hT hv hroom hbody hpc _
    · exact hpush
  · rw [hdl] at hd
    rw [hwindow]
    rcases List.mem_append.1 hd with hd | hd
    · obtain ⟨h1, h2⟩ := hfresh d hd
      exact ⟨h1.push hv hroom _, h2.push hv hroom _⟩
    · obtain rfl := List.mem_singleton.1 hd
      exact hmap.newDecRec_fresh hring hroom hbody _

/-- Decode takes a record that finds room (R90, R91). -/
theorem Sim.allocate (hT : SeqTrace T) {s : State} {f : FetchRec} {rest : List FetchRec} (h : Sim T s)
    (hfresh : LatchFresh s) (hfb : s.fb = f :: rest) (hroom : s.robCount < s.cfg.robCap) :
    Sim T (State.allocate { s with fb := s.fb.tail } f) ∧ LatchFresh (State.allocate { s with fb := s.fb.tail } f) := by
  obtain ⟨hbody, hpc⟩ := h.front.head hfb
  have hpopped := h.toInflight.setFb s.fb.tail
  obtain ⟨h', hfresh'⟩ := hpopped.allocate hT hfresh hroom hbody hpc
  refine ⟨⟨h', h.front.take (f := f) h.engine.ring hroom ?_ ?_ (window_allocate hpopped.robRing f) rfl rfl⟩, hfresh'⟩
  · rw [State.allocate_fb, hfb]
    rfl
  · rw [State.allocate_fetch]

theorem Sim.of_stalls {s t : State} {f : FetchRec} (hs : Stalls s f t) (h : Sim T s) : Sim T t := by
  obtain ⟨⟨⟨cfg, imem, archPc, regs, mem, before⟩, running, tail, ⟨ready, named⟩, engine⟩, p, hp, ⟨bodies, path⟩⟩ := h
  cases hs <;>
    exact ⟨⟨⟨cfg, imem, archPc, regs, mem, before⟩, running, tail, ⟨ready, named⟩, engine⟩, p, hp, ⟨bodies, path⟩⟩

theorem Sim.decodes (hT : SeqTrace T) {n : Nat} {s t : State} {taken : List FetchRec} (hd : Decodes n s taken t)
    (h : Sim T s) (hfresh : LatchFresh s) : Sim T t := by
  induction hd with
  | full | empty => exact h
  | stall _ hs => exact h.of_stalls hs
  | take hfb room _ ih =>
    obtain ⟨h', hfresh'⟩ := h.allocate hT hfresh hfb room.rob
    exact ih h' hfresh'

theorem Sim.decodeStage (hT : SeqTrace T) {s : State} (h : Sim T s) : Sim T s.decodeStage := by
  by_cases hdl : s.dl = []
  · obtain ⟨taken, hd⟩ := State.decodeStage_decodes hdl
    exact h.decodes hT hd (by rw [LatchFresh, hdl]; exact nofun)
  · rw [State.decodeStage, if_neg (by simpa using hdl)]
    exact h

end Sys2Proof.Machine
end

section
/-!
SUPPORT. The fetch stage extends the path in the fetch buffer (R102 to R106).
-/

namespace Sys2Proof.Machine

open Window

variable {T : Nat → State} {p q : Word}

theorem FetchPath.append {fb : List FetchRec} {f : FetchRec} (h : FetchPath p fb q) (hf : f.pc = q) :
    FetchPath p (fb ++ [f]) f.fetchedNextPc := by
  induction fb generalizing p with
  | nil =>
    obtain rfl : p = q := h
    exact ⟨hf, rfl⟩
  | cons g fb ih => exact ⟨h.1, ih h.2⟩

/-- The buffer with one more record, at the pc of fetch. -/
theorem FetchOk.append {s t : State} {f : FetchRec} (h : FetchOk T p s) (hfree : s.fetch.blocked = false)
    (hfb : t.fb = s.fb ++ [f]) (hbody : f.BodyOk T) (hpc : f.pc = s.fetch.pc)
    (hnext : t.fetch.blocked = false → t.fetch.pc = f.fetchedNextPc) : FetchOk T p t := by
  obtain ⟨bodies, q, hpath, hq⟩ := h
  refine ⟨fun g hg => ?_, f.fetchedNextPc, ?_, hnext⟩ <;> rw [hfb] at *
  · rcases List.mem_append.1 hg with hg | hg
    · exact bodies g hg
    · obtain rfl := List.mem_singleton.1 hg
      exact hbody
  · exact hpath.append (hpc.trans (hq hfree))

theorem FetchOk.afterHit {s : State} {i : Instr} (h : FetchOk T p s) (hfree : s.fetch.blocked = false)
    (hi : (T 0).instrAt s.fetch.pc = some i) : FetchOk T p (s.afterHit i) := by
  refine h.append hfree (s.afterHit_fb i) ?_ rfl fun _ => s.afterHit_pc i
  show some i.record = ((T 0).instrAt s.fetch.pc).map Instr.record
  rw [hi]
  rfl

/-- A packet extends the path (R104). -/
theorem Packet.fetchOk {n : Nat} {s t : State} {new : List FetchRec} (hp : Packet n s new t)
    (hinstr : ∀ a, s.instrAt a = (T 0).instrAt a) (hfree : s.fetch.blocked = false) (h : FetchOk T p s) :
    FetchOk T p t := by
  induction hp with
  | width | full => exact h
  | @fault n s room hi =>
    refine h.append hfree rfl ?_ rfl nofun
    show none = ((T 0).instrAt s.fetch.pc).map Instr.record
    rw [← hinstr, hi]
    rfl
  | @miss n s room hi hmiss =>
    obtain ⟨bodies, path⟩ := h
    exact ⟨bodies, path⟩
  | taken room hi hit htaken => exact h.afterHit hfree (hinstr _ ▸ hi)
  | @next n s t i new room hi hit hnot _ ih =>
    exact ih (fun a => (s.afterHit_instrAt i a).trans (hinstr a)) ((s.afterHit_blocked i).trans hfree)
      (h.afterHit hfree (hinstr _ ▸ hi))

theorem FetchOk.fetchStage {s : State} (h : FetchOk T p s) (hinstr : ∀ a, s.instrAt a = (T 0).instrAt a) :
    FetchOk T p s.fetchStage := by
  unfold State.fetchStage
  split
  · obtain ⟨bodies, path⟩ := h
    exact ⟨bodies, path⟩
  · split
    · exact h
    · rename_i hfree
      obtain ⟨new, hp⟩ := fetchLoop_packet s.cfg.fetchWidth s
      exact hp.fetchOk hinstr (by simpa using hfree) h

theorem Sim.fetchStage {s : State} (h : Sim T s) : Sim T s.fetchStage := by
  have hwindow : s.fetchStage.window = s.window := by simp [State.window]
  have hflight : s.fetchStage.flight = s.flight := by simp [State.flight]
  have hinstr : ∀ a, s.instrAt a = (T 0).instrAt a := State.instrAt_congr h.arch.cfg h.arch.imem
  refine ⟨h.toInflight.of_engine (by simp) (by simp) (by simp) (by simp) s.sameArch_fetchStage (by simp) ?_, ?_⟩
  · rw [hwindow, hflight]
    exact h.engine
  · obtain ⟨p, hp, hfetch⟩ := h.front
    refine ⟨p, ?_, hfetch.fetchStage hinstr⟩
    rw [hwindow]
    exact hp

end Sys2Proof.Machine
end

section
/-!
SUPPORT. The commit stage: a retired head moves the sequential run on by one instruction (R140 to R149).
-/

namespace Sys2Proof.Machine

open Window

variable {T : Nat → State} {v : Window} {f : Flight}

/-! ### An empty pipeline -/

/-- Nothing is in flight and fetch stands at `arch_pc`: after reset and after a squash (R149, R202). -/
structure State.Drained (s : State) : Prop where
  ring : RobRing s
  count : s.robCount = 0
  ready : ∀ r, (s.regEntry r).ready = true
  rs : ∀ k e, e ∈ s.rs.get k → e.valid = false
  fu : ∀ k u, u ∈ s.fu.get k → u.busy = false
  cdbq : s.cdbq = []
  lsq : s.lsq = []
  mport : s.mport.busy = false
  dl : s.dl = []
  fb : s.fb = []
  pc : s.fetch.pc = s.archPc

theorem State.Drained.invalid {s : State} (h : s.Drained) (t : Nat) : ¬ (s.window.slot t).valid = true := by
  intro ht
  have hlt := (ring_of_robRing h.ring).num_lt ht
  have hcount : s.window.count = 0 := h.count
  rw [Window.next, hcount] at hlt
  exact absurd (s.window.base_le_num t) (Nat.not_le.2 hlt)

theorem State.Drained.flightOk {s : State} (h : s.Drained) : FlightOk T s.window s.flight where
  latch := by rw [State.flight, h.dl]; exact nofun
  stations k e he hvalid := absurd hvalid (by rw [h.rs k e he]; exact Bool.false_ne_true)
  units k u hu hbusy := absurd hbusy (by rw [h.fu k u hu]; exact Bool.false_ne_true)
  results := by rw [State.flight, h.cdbq]; exact nofun
  port hbusy := absurd hbusy (by rw [State.flight, h.mport]; exact Bool.false_ne_true)
  queue := by
    refine ⟨?_, ?_, fun t ht => absurd ht (h.invalid t)⟩ <;> rw [State.flight, h.lsq]
    · exact .nil
    · exact nofun
  once t := by
    have hrs : ∀ k, stationCount t (s.rs.get k) = 0 := fun k =>
      List.countP_eq_zero.2 fun e he => by rw [h.rs k e he]; exact Bool.false_ne_true
    have hfu : ∀ k, unitCount t (s.fu.get k) = 0 := fun k =>
      List.countP_eq_zero.2 fun u hu => by rw [h.fu k u hu]; exact Bool.false_ne_true
    have hrs' : classTotal (stationCount t) s.rs = 0 := by
      rw [classTotal, show s.rs.alu = s.rs.get .alu from rfl, show s.rs.fpu = s.rs.get .fpu from rfl,
        show s.rs.lsu = s.rs.get .lsu from rfl, hrs, hrs, hrs]
    have hfu' : classTotal (unitCount t) s.fu = 0 := by
      rw [classTotal, show s.fu.alu = s.fu.get .alu from rfl, show s.fu.fpu = s.fu.get .fpu from rfl,
        show s.fu.lsu = s.fu.get .lsu from rfl, hfu, hfu, hfu]
    simp [Flight.places, State.flight, hrs', hfu', h.dl, h.cdbq, h.lsq, portCount, h.mport, latchCount, resultCount,
      loadCount]

/-- The invariant holds with nothing in flight. -/
theorem State.Drained.sim {s : State} (h : s.Drained) (harch : ArchOk T s)
    (hrun : (T s.window.base).outcome = .running) : Sim T s where
  arch := harch
  running := hrun
  tail := h.ring.tail
  map := ⟨fun r _ t ht => absurd ht (h.invalid t), fun r hr => by rw [h.ready r] at hr; cases hr⟩
  engine := ⟨.refl _, ring_of_robRing h.ring, fun t ht => absurd ht (h.invalid t), h.flightOk⟩
  front := by
    have hnext : s.window.next = s.window.base := congrArg (s.window.base + ·) h.count
    refine ⟨s.archPc, fun _ => by rw [hnext, harch.archPc], ?_, s.archPc, ?_, fun _ => h.pc⟩ <;> rw [h.fb]
    · exact nofun
    · rfl

/-- A squash drains the pipeline (R149). -/
theorem State.drained_squashAfter {s : State} (hring : RobRing s) {e : RobEntry} (hpc : s.archPc = e.actualNextPc) :
    (s.squashAfter e).Drained where
  ring := hring.squashAfter e
  count := rfl
  ready r := by rw [State.regEntry_squashAfter]
  rs k x hx := by
    rw [State.squashAfter_rs, PerClass.get_map] at hx
    obtain ⟨y, -, rfl⟩ := List.mem_map.1 hx
    rfl
  fu k u hu := by
    rw [State.squashAfter_fu, PerClass.get_map] at hu
    obtain ⟨y, -, rfl⟩ := List.mem_map.1 hu
    rfl
  cdbq := rfl
  lsq := rfl
  mport := rfl
  dl := rfl
  fb := rfl
  pc := hpc.symm

/-! ### The head leaves the window -/

/-- What is known of the slots after a commit of the head. -/
theorem Entries.pop (hring : v.Ring) (hv : Entries T v)
    (hpath : (v.slot v.head).fetchedNextPc = (T (v.base + 1)).archPc) : Entries T v.pop := by
  intro t ht
  obtain ⟨hne, hvalid, -, -⟩ := hring.of_valid_pop ht
  exact (hv t hvalid).keep (hring.keeps_pop hpath) ⟨hvalid, hne⟩ (hring.num_lt hvalid).le

/-- A snapshot after a commit: it may name the entry that has left (R96). -/
theorem SnapshotOk.pop (hring : v.Ring) (hpath : (v.slot v.head).fetchedNextPc = (T (v.base + 1)).archPc) {t : Nat}
    {r : Reg} {x : Snapshot} (ht : (v.slot t).valid = true) (hne : t ≠ v.head) (h : SnapshotOk v t r x) :
    SnapshotOk v.pop t r x := by
  have hk := hring.keeps_pop hpath
  have hn := (hring.num_lt ht).le
  have hnum := hk.num t ⟨ht, hne⟩
  cases x with
  | const0 => exact h
  | arch i =>
    obtain ⟨rfl, hw⟩ := h
    exact ⟨rfl, by rw [hnum]; exact hk.none _ _ hn hw⟩
  | tag p q i =>
    obtain ⟨rfl, hw⟩ := h
    refine ⟨rfl, ?_⟩
    rw [hnum]
    by_cases hp : p = v.head
    · rw [hp, hring.slot_pop_head]
      refine .inr ⟨fun c => Bool.false_ne_true c.1, ?_⟩
      rcases hw with ⟨-, hw⟩ | ⟨-, hw⟩
      · rw [hp] at hw
        exact hring.noWriter_pop hw
      · exact hk.none _ _ hn hw
    · rw [slot_pop_of_ne hp]
      exact hw.imp (And.imp_right fun hw => hk.last _ _ _ hn ⟨hw.valid, hp⟩ hw) (And.imp_right (hk.none _ _ hn))

/-- The queue without the entry of the head, which is its first (R126, R138). -/
theorem QueueOk.pop {q q' : List LsqEntry} (hring : v.Ring)
    (hpath : (v.slot v.head).fetchedNextPc = (T (v.base + 1)).archPc) (h : QueueOk T v q) (hsub : q'.Sublist q)
    (hne : ∀ l, l ∈ q' → l.rob ≠ v.head) (hall : ∀ l, l ∈ q → l.rob ≠ v.head → l ∈ q') : QueueOk T v.pop q' where
  sorted := by
    have hk := hring.keeps_pop hpath
    have hsame : (q'.map fun l => v.pop.num l.rob) = q'.map fun l => v.num l.rob := by
      refine List.map_congr_left fun l hl => ?_
      obtain ⟨i, hi⟩ := h.entries l (hsub.subset hl)
      exact hk.num _ ⟨hi.holds.valid, hne l hl⟩
    rw [hsame]
    exact h.sorted.sublist (hsub.map _)
  entries l hl := by
    obtain ⟨i, hi⟩ := h.entries l (hsub.subset hl)
    exact ⟨i, hi.keep (hring.keeps_pop hpath) ⟨hi.holds.valid, hne l hl⟩ (hring.num_lt hi.holds.valid).le⟩
  complete t ht hlsq := by
    obtain ⟨hnet, hvalid, hslot, -⟩ := hring.of_valid_pop ht
    rw [hslot] at hlsq
    obtain ⟨l, hl, rfl⟩ := h.complete t hvalid hlsq
    exact ⟨l, hall l hl hnet, rfl⟩

/-- A queue entry's slot owns it. -/
theorem QueuedOk.hasLsq {l : LsqEntry} {i : Instr} (hv : Entries T v) (h : QueuedOk T v l i) :
    (v.slot l.rob).hasLsq = true := by
  rw [((hv _ h.holds.valid).instr i h.holds.instr).hasLsq, h.op]
  split <;> rfl

/-- The first entry of the queue is the head's, if the head owns one. -/
theorem QueueOk.first_of_head {q : List LsqEntry} (hring : v.Ring) (h : QueueOk T v q)
    (hvalid : (v.slot v.head).valid = true) (hlsq : (v.slot v.head).hasLsq = true) :
    ∃ x rest, q = x :: rest ∧ x.rob = v.head ∧ ∀ l, l ∈ rest → l.rob ≠ v.head := by
  obtain ⟨l, hl, hrob⟩ := h.complete _ hvalid hlsq
  cases q with
  | nil => cases hl
  | cons x rest =>
    have hsorted := h.sorted
    rw [List.map_cons, List.pairwise_cons] at hsorted
    obtain ⟨hfirst, -⟩ := hsorted
    have hxrob : x.rob = v.head := by
      rcases List.mem_cons.1 hl with rfl | hl
      · exact hrob
      · have hlt := hfirst _ (List.mem_map_of_mem hl)
        rw [hrob, hring.num_head] at hlt
        exact absurd (v.base_le_num x.rob) (Nat.not_le.2 hlt)
    refine ⟨x, rest, rfl, hxrob, fun y hy heq => ?_⟩
    have hlt := hfirst _ (List.mem_map_of_mem hy)
    rw [heq, hxrob] at hlt
    exact lt_irrefl _ hlt

/-- The records in flight after a commit of a completed head that fetch followed rightly. -/
theorem FlightOk.pop (hring : v.Ring) (hv : Entries T v) (h : FlightOk T v f)
    (hpath : (v.slot v.head).fetchedNextPc = (T (v.base + 1)).archPc) (hvalid : (v.slot v.head).valid = true)
    (hdone : (v.slot v.head).completed = true) (hexc : (v.slot v.head).exception = none) :
    FlightOk T v.pop { f with lsq := if (v.slot v.head).hasLsq then f.lsq.tail else f.lsq } := by
  have hk := hring.keeps_pop hpath
  have hpend : ∀ t i, Pending T v t i → (v.slot t).valid = true ∧ t ≠ v.head := fun t i hp =>
    ⟨hp.valid, by rintro rfl; rw [hp.waiting] at hdone; cases hdone⟩
  have hsub : (if (v.slot v.head).hasLsq then f.lsq.tail else f.lsq).Sublist f.lsq := by
    split
    · exact List.tail_sublist _
    · exact .refl _
  refine h.keep hring hk hpend (fun n r p hw hwait => ⟨hw.valid, fun hp => hwait (hp ▸ ⟨hdone, hexc⟩)⟩)
    (fun d hd => (h.latch d hd).keep hk hpend fun t r ht hK =>
      ⟨fun hs => hs.pop hring hpath ht hK.2, fun hs => hs.pop hring hpath ht hK.2⟩)
    (h.queue.pop hring hpath hsub (fun l hl heq => ?_) fun l hl hne => ?_) (fun t => ?_)
  · cases hlsq : (v.slot v.head).hasLsq with
    | true =>
      obtain ⟨x, rest, hq, -, hrest⟩ := h.queue.first_of_head hring hvalid hlsq
      rw [if_pos hlsq, hq] at hl
      exact hrest l hl heq
    | false =>
      obtain ⟨i, hi⟩ := h.queue.entries l (hsub.subset hl)
      have hhas := hi.hasLsq hv
      rw [heq, hlsq] at hhas
      cases hhas
  · split
    · rename_i hlsq
      obtain ⟨x, rest, hq, hx, -⟩ := h.queue.first_of_head hring hvalid hlsq
      rw [hq] at hl ⊢
      rcases List.mem_cons.1 hl with rfl | hl
      · exact absurd hx hne
      · exact hl
    · exact hl
  · have honce := h.once t
    have hle : loadCount t _ ≤ loadCount t f.lsq := hsub.countP_le
    simp only [Flight.places] at honce ⊢
    omega

/-! ### The architectural state after a commit -/

/-- The head entry, when it is retired or its fault is surfaced, is that of the next instruction of the sequential run. -/
theorem Sim.head {s : State} (h : Sim T s) (hcount : s.robCount ≠ 0) :
    s.headEntry = s.window.slot s.window.head ∧ s.headEntry.valid = true ∧ s.window.num s.window.head = s.window.base ∧
      EntryOk T s.window s.window.head ∧ s.headEntry.pc = (T s.window.base).archPc := by
  have hring := h.engine.ring
  have hnum := hring.num_head
  have hvalid : (s.window.slot s.window.head).valid = true := by
    rw [hring.valid _ hring.head, hnum, Window.next]
    exact Nat.lt_add_of_pos_right (Nat.pos_of_ne_zero hcount)
  have he := h.engine.entries _ hvalid
  refine ⟨rfl, hvalid, hnum, he, ?_⟩
  have hpc := he.pc
  rw [hnum] at hpc
  exact hpc (onPath_base T s.window)

/-- A retired head's commit is the next step of the sequential run. -/
theorem Sim.retired {s : State} {w : List Reg} {e : RobEntry} (h : Sim T s) (hact : s.headAction w = .retire e) :
    Retired (T s.window.base) (T (s.window.base + 1)) e := by
  obtain ⟨rfl, hcount, hdone, hexc, -, hexit⟩ := headAction_retire hact
  obtain ⟨-, -, hnum, he, -⟩ := h.head hcount
  have hs := he.settled hdone
  rw [hnum] at hs
  refine (hs (fun hop => ?_) (onPath_base T s.window)).retired hexc
  have hreq := hexit hop
  rw [exitRequested_eq, decide_eq_true_eq] at hreq
  rw [← h.arch.regs]
  exact hreq

theorem State.window_commitOne_base (s : State) (e : RobEntry) :
    (s.commitOne e).window.base = s.window.base + 1 := s.commitOne_committed e

/-- A commit takes the architectural state to that of the next step (R143). -/
theorem ArchOk.commitOne (hT : SeqTrace T) {s : State} {e : RobEntry} (h : ArchOk T s)
    (hrun : (T s.window.base).outcome = .running) (hr : Retired (T s.window.base) (T (s.window.base + 1)) e) :
    ArchOk T (s.commitOne e) where
  cfg := (State.commitOne_cfg ..).trans h.cfg
  imem := (State.commitOne_imem ..).trans h.imem
  archPc := by rw [s.window_commitOne_base, hr.pc, State.commitOne_archPc]
  regs r := by rw [s.window_commitOne_base, hr.regs, State.reg_commitOne, h.regs]
  mem := by rw [s.window_commitOne_base, hr.mem, State.commitOne_mem, h.mem, h.cfg, hT.cfg s.window.base]
  before m hm := by
    rw [s.window_commitOne_base] at hm
    rcases Nat.lt_succ_iff_lt_or_eq.1 hm with hm | rfl
    · exact h.before m hm
    · exact hrun

/-- The rename map after a commit: the register is ready again if the head was its last writer (R143). -/
theorem MapOk.commitOne {s : State} (h : MapOk s) (hring : s.window.Ring) (hv : Entries T s.window)
    (hcount : s.robCount ≠ 0) (hvalid : s.headEntry.valid = true)
    (hpath : s.headEntry.fetchedNextPc = (T (s.window.base + 1)).archPc) : MapOk (s.commitOne s.headEntry) := by
  have hk := hring.keeps_pop (T := T) hpath
  have hnext : s.window.pop.next = s.window.next := next_pop hcount
  have hnone : ∀ r, NoWriter s.window s.window.next r → NoWriter s.window.pop s.window.next r := fun r =>
    hk.none _ r (le_refl _)
  have hlast : ∀ r p, p ≠ s.window.head → LastWriter s.window s.window.next r p →
      LastWriter s.window.pop s.window.next r p := fun r p hp hw => hk.last _ r p (le_refl _) ⟨hw.valid, hp⟩ hw
  constructor <;> intro r hr <;> rw [window_commitOne, hnext] <;>
    rw [State.regEntry_commitOne, State.regEntry_commitRegister] at *
  · split at hr
    · rcases Bool.or_eq_true_iff.1 hr with hr | htag
      · exact hnone r (h.ready r hr)
      · cases hready : (s.regEntry r).ready with
        | true => exact hnone r (h.ready r hready)
        | false =>
          have hw := h.named r hready
          rw [show (s.regEntry r).tag = s.window.head from beq_iff_eq.1 htag] at hw
          exact hring.noWriter_pop hw
    · exact hnone r (h.ready r hr)
  · split at hr
    · rename_i hd
      rw [if_pos hd]
      obtain ⟨hready, htag⟩ := Bool.or_eq_false_iff.1 hr
      exact hlast r _ (beq_eq_false_iff_ne.1 htag) (h.named r hready)
    · rename_i hd
      rw [if_neg hd]
      have hw := h.named r hr
      refine hlast r _ (fun heq => hd ?_) hw
      have hdest := hw.dest
      rw [heq] at hdest
      exact ⟨hdest, (hv _ hvalid).dest_ne_zero hdest⟩

theorem FrontOk.commitOne {s : State} {e : RobEntry} (h : FrontOk T s) (hring : s.window.Ring) (hcount : s.robCount ≠ 0)
    (hpath : s.headEntry.fetchedNextPc = (T (s.window.base + 1)).archPc) : FrontOk T (s.commitOne e) := by
  obtain ⟨p, hp, bodies, q, hbuf, hq⟩ := h
  have hk := hring.keeps_pop (T := T) hpath
  refine ⟨p, ?_, by rw [State.commitOne_fb]; exact bodies, q, by rw [State.commitOne_fb]; exact hbuf,
    by rw [State.commitOne_fetch]; exact hq⟩
  rw [window_commitOne, next_pop hcount]
  exact fun hon => hp (hk.path _ (le_refl _) hon)

/-- A retired head that neither ends the run nor was mispredicted keeps the invariant (R143). -/
theorem Sim.commitOne (hT : SeqTrace T) {s : State} {w : List Reg} {e : RobEntry} (h : Sim T s)
    (hact : s.headAction w = .retire e) (goes : e.halts = false) (right : e.mispredicted = false) :
    Sim T (s.commitOne e) := by
  have hr := h.retired hact
  obtain ⟨rfl, hcount, hdone, hexc, -, -⟩ := headAction_retire hact
  obtain ⟨-, hvalid, -, -, -⟩ := h.head hcount
  have hpath : s.headEntry.fetchedNextPc = (T (s.window.base + 1)).archPc := by
    simp only [RobEntry.mispredicted, Bool.or_eq_false_iff, bne_eq_false_iff_eq] at right
    rw [hr.pc, right.1]
  have hring := h.engine.ring
  have hflight : (s.commitOne s.headEntry).flight =
      { s.flight with lsq := if (s.window.slot s.window.head).hasLsq then s.flight.lsq.tail else s.flight.lsq } := by
    simp only [State.flight, State.commitOne_dl, State.commitOne_rs, State.commitOne_fu, State.commitOne_cdbq,
      State.commitOne_mport, State.commitOne_lsq]
    rfl
  have hring' := h.robRing.commitOne s.headEntry hcount
  refine ⟨⟨h.arch.commitOne hT h.running hr, ?_, hring'.tail,
    h.map.commitOne hring h.engine.entries hcount hvalid hpath, ?_⟩, h.front.commitOne hring hcount hpath⟩
  · rw [s.window_commitOne_base, hr.outcome, goes]
    exact h.running
  · refine ⟨.refl _, ring_of_robRing hring', ?_, ?_⟩ <;> rw [window_commitOne]
    · exact h.engine.entries.pop hring hpath
    · rw [hflight]
      exact h.engine.flight.pop hring h.engine.entries hpath hvalid hdone hexc

/-! ### The stage -/

/-- How the pipeline state agrees with the sequential run `T` after as many instructions as it has committed. -/
inductive Agrees (T : Nat → State) (s : State) : Prop where
  | running (h : s.outcome = .running) (sim : Sim T s)
  | halted (h : s.outcome = .halted) (arch : ArchOk T s) (ends : (T s.window.base).outcome = .halted)
  | faulted {c : Cause} {pc : Word} {q : Nat} {a : Word} (h : s.outcome = .faulted c pc q a) (arch : ArchOk T s)
    (goes : (T s.window.base).outcome = .running)
    (next : ∃ q', (T (s.window.base + 1)).outcome = .faulted c pc q' a)
  | limit (h : s.outcome = .limit) (arch : ArchOk T s) (goes : (T s.window.base).outcome = .running)

/-- A surfaced fault is the one the sequential run raises next (R145, R180). -/
theorem Sim.surface (hT : SeqTrace T) {s : State} {w : List Reg} {e : RobEntry} {c : Cause} {a : Word} (h : Sim T s)
    (hact : s.headAction w = .surface e c a) : ∃ q', (T (s.window.base + 1)).outcome = .faulted c e.pc q' a := by
  have hcount : s.robCount ≠ 0 := by
    intro h0
    rw [State.headAction, if_pos h0] at hact
    cases hact
  have hdone : s.headEntry.completed = true := by
    by_contra hno
    rw [State.headAction, if_neg hcount, if_pos (by simpa using hno)] at hact
    cases hact
  obtain ⟨-, -, hnum, he, hpc⟩ := h.head hcount
  obtain ⟨rfl, ⟨hexc, rfl⟩ | ⟨hop, hexit, rfl, rfl⟩⟩ := headAction_surface hact
  · have hs := he.settled hdone
    rw [hnum] at hs
    have hnot : s.headEntry.op ≠ some .syscall := by
      intro hop
      cases hi : (T 0).instrAt (s.window.slot s.window.head).pc with
      | none =>
        have hnone : s.headEntry.op = none := (he.fault hi).1
        rw [hnone] at hop
        cases hop
      | some i =>
        have hiop : s.headEntry.op = some i.record.op := (he.instr i hi).op
        rw [hiop] at hop
        have hclean : s.headEntry.exception = none := (he.decode i hi (by rw [Option.some.inj hop]; rfl)).2
        rw [hclean] at hexc
        cases hexc
    rw [(hs (fun hop => absurd hop hnot) (onPath_base T s.window)).raised hexc, hpc]
    exact ⟨_, rfl⟩
  · cases hi : (T 0).instrAt (s.window.slot s.window.head).pc with
    | none =>
      have hnone : s.headEntry.op = none := (he.fault hi).1
      rw [hnone] at hop
      cases hop
    | some i =>
      have hiop : s.headEntry.op = some i.record.op := (he.instr i hi).op
      rw [hiop] at hop
      have hexec := hT.exec (n := s.window.base) (i := i) (hpc ▸ hi)
      obtain rfl : i = .syscall := by cases i <;> simp [Instr.record] at hop ⊢
      rw [h.arch.regs] at hexit
      rw [Sys2Proof.Machine.exec, execSyscall, if_neg (by rw [hexit]; exact Bool.false_ne_true)] at hexec
      rw [← Host.Outcome.next.inj hexec, hpc]
      exact ⟨_, rfl⟩

theorem Agrees.commits (hT : SeqTrace T) {n : Nat} {w : List Reg} {s t : State} {l : List RobEntry}
    (hc : Commits n w s l t) (hrun : s.outcome = .running) (h : Sim T s) : Agrees T t := by
  induction hc with
  | full | wait => exact .running hrun h
  | @surface n w s e c a hact =>
    have harch : ArchOk T (s.surface c e.pc e.seq a) :=
      ⟨h.arch.cfg, h.arch.imem, h.arch.archPc, h.arch.regs, h.arch.mem, h.arch.before⟩
    exact .faulted rfl harch h.running (h.surface hT hact)
  | @halt n w s e hact ends =>
    have hr := h.retired hact
    have harch := h.arch.commitOne hT h.running hr
    refine .halted rfl ⟨harch.cfg, harch.imem, harch.archPc, harch.regs, harch.mem, harch.before⟩ ?_
    show (T (s.commitOne e).window.base).outcome = _
    rw [s.window_commitOne_base, hr.outcome, if_pos ends]
  | @squash n w s e hact goes wrong =>
    have hr := h.retired hact
    have harch := h.arch.commitOne hT h.running hr
    obtain ⟨-, hcount, -⟩ := headAction_retire hact
    refine .running ((State.commitOne_outcome ..).trans hrun)
      ((State.drained_squashAfter (h.robRing.commitOne e hcount) rfl).sim
        (harch.of_sameArch rfl rfl rfl (.squash _ e) rfl) ?_)
    show (T (s.commitOne e).window.base).outcome = _
    rw [s.window_commitOne_base, hr.outcome, goes]
    exact h.running
  | retire hact goes right _ ih => exact ih ((State.commitOne_outcome ..).trans hrun) (h.commitOne hT hact goes right)

theorem Agrees.commitStage (hT : SeqTrace T) {s : State} (hrun : s.outcome = .running) (h : Sim T s) :
    Agrees T s.commitStage :=
  .commits hT s.commitStage_commits hrun h

end Sys2Proof.Machine
end

section
/-!
SUPPORT. The simulation of R99: from the loaded state, tick by tick, the pipeline agrees with the sequential run.
-/

namespace Sys2Proof.Machine

open Window

variable {T : Nat → State}

/-! ### One tick -/

theorem Agrees.arch {s : State} (h : Agrees T s) : ArchOk T s := by
  cases h with
  | running _ sim => exact sim.arch
  | halted _ arch _ => exact arch
  | faulted _ arch _ _ => exact arch
  | limit _ arch _ => exact arch

/-- A stage that leaves the architectural state, the outcome and the count alone, and keeps the invariant. -/
theorem Agrees.stage {s t : State} (h : Agrees T s) (hsim : Sim T s → Sim T t) (hcfg : t.cfg = s.cfg)
    (himem : t.imem = s.imem) (hmem : t.mem = s.mem) (harch : SameArch s t)
    (hcount : t.metrics.instructionsCommitted = s.metrics.instructionsCommitted) (hout : t.outcome = s.outcome) :
    Agrees T t := by
  have hbase : t.window.base = s.window.base := hcount
  have arch' : ArchOk T t := h.arch.of_sameArch hcfg himem hmem harch hbase
  cases h with
  | running h sim => exact .running (hout.trans h) (hsim sim)
  | halted h _ ends => exact .halted (hout.trans h) arch' (by rw [hbase]; exact ends)
  | faulted h _ goes next => exact .faulted (hout.trans h) arch' (by rw [hbase]; exact goes) (by rw [hbase]; exact next)
  | limit h _ goes => exact .limit (hout.trans h) arch' (by rw [hbase]; exact goes)

theorem Agrees.memoryStage (hT : SeqTrace T) {s : State} (h : Agrees T s) : Agrees T s.memoryStage :=
  h.stage (fun h => h.memoryStage hT) (by simp) (by simp) (by simp) s.sameArch_memoryStage s.memoryStage_committed
    (by simp)

theorem Agrees.executeStage (hT : SeqTrace T) {s : State} (h : Agrees T s) : Agrees T s.executeStage :=
  h.stage (fun h => h.executeStage hT) (by simp) (by simp) (by simp) s.sameArch_executeStage s.executeStage_committed
    (by simp)

theorem Agrees.issueStage (hT : SeqTrace T) {s : State} (h : Agrees T s) : Agrees T s.issueStage :=
  h.stage (fun h => h.issueStage hT) (by simp) (by simp) (by simp) s.sameArch_issueStage (by simp) (by simp)

theorem Agrees.decodeStage (hT : SeqTrace T) {s : State} (h : Agrees T s) : Agrees T s.decodeStage :=
  h.stage (fun h => h.decodeStage hT) (by simp) (by simp) (by simp) s.sameArch_decodeStage s.decodeStage_committed
    (by simp)

theorem Agrees.fetchStage {s : State} (h : Agrees T s) : Agrees T s.fetchStage :=
  h.stage (fun h => h.fetchStage) (by simp) (by simp) (by simp) s.sameArch_fetchStage s.fetchStage_committed (by simp)

theorem Sim.clock {s : State} (h : Sim T s) (n : Nat) : Sim T { s with cycle := n } := by
  obtain ⟨⟨⟨cfg, imem, archPc, regs, mem, before⟩, running, tail, ⟨ready, named⟩, engine⟩, p, hp, ⟨bodies, path⟩⟩ := h
  exact ⟨⟨⟨cfg, imem, archPc, regs, mem, before⟩, running, tail, ⟨ready, named⟩, engine⟩, p, hp, ⟨bodies, path⟩⟩

theorem Agrees.clock {s : State} (h : Agrees T s) (n : Nat) : Agrees T { s with cycle := n } :=
  h.stage (fun h => h.clock n) rfl rfl rfl (.of_fields rfl rfl rfl) rfl rfl

theorem Agrees.tick (hT : SeqTrace T) {s : State} (hrun : s.outcome = .running) (h : Sim T s) : Agrees T s.tick :=
  (Agrees.commitStage hT hrun h).memoryStage hT |>.executeStage hT |>.issueStage hT |>.decodeStage hT |>.fetchStage
    |>.clock _

/-- The end test (R87). -/
theorem Agrees.limitCheck {s : State} (h : Agrees T s) : Agrees T s.limitCheck := by
  unfold State.limitCheck
  split
  · rename_i hend
    have harch : ArchOk T { s with outcome := .limit } :=
      h.arch.of_sameArch rfl rfl rfl (.of_fields rfl rfl rfl) rfl
    cases h with
    | running _ sim => exact .limit rfl harch sim.running
    | halted h | faulted h | limit h =>
      rw [hend.1] at h
      cases h
  · exact h

/-- One turn of the driver (R87). -/
theorem Agrees.driverTick (hT : SeqTrace T) {s : State} (hrun : s.outcome = .running) (h : Sim T s) :
    Agrees T s.driverTick :=
  (Agrees.tick hT hrun h).limitCheck

/-! ### Runs -/

theorem State.startRefusal_congr {s t : State} (hcfg : t.cfg = s.cfg) (himem : t.imem = s.imem) :
    t.startRefusal = s.startRefusal := by
  unfold State.startRefusal
  rw [hcfg, himem]

theorem run_succ_of_next (M : Host.Core) {n : Nat} {s t : M.State} (h : M.step s = .next t) :
    M.run (n + 1) s = M.run n t := by
  show (match M.step s with
    | .next u => M.run n u
    | .fault r => .fault r
    | .refused r => .refused r) = _
  rw [h]

theorem run_succ_next (M : Host.Core) {n : Nat} {s t : M.State} (h : M.run (n + 1) s = .next t) :
    ∃ u, M.step s = .next u ∧ M.run n u = .next t := by
  change (match M.step s with
    | .next u => M.run n u
    | .fault r => .fault r
    | .refused r => .refused r) = _ at h
  cases hstep : M.step s with
  | next u =>
    rw [hstep] at h
    exact ⟨u, rfl, h⟩
  | fault r | refused r =>
    rw [hstep] at h
    cases h

/-- Every state the pipeline reaches from one that agrees with the sequential run agrees with it. -/
theorem Agrees.run (hT : SeqTrace T) {n : Nat} {s t : State} (h : Agrees T s) (hstart : s.startRefusal = none)
    (hdriver : s.driver = .pipeline) (hrun : Host.Core.run Sys2Proof.core n s = .next t) : Agrees T t := by
  induction n generalizing s with
  | zero =>
    obtain rfl : s = t := Host.Outcome.next.inj hrun
    exact h
  | succ n ih =>
    obtain ⟨u, hstep, hrest⟩ := run_succ_next Sys2Proof.core hrun
    have hstep : Machine.step s = .next u := hstep
    obtain ⟨-, hout, -⟩ := step_next hstep
    rw [step_of_pipeline hstart hout hdriver] at hstep
    obtain rfl := Host.Outcome.next.inj hstep
    cases h with
    | running _ sim =>
      refine ih (Agrees.driverTick hT hout sim) ?_ ((State.driverTick_driver s).trans hdriver) hrest
      exact (State.startRefusal_congr (State.driverTick_cfg s) (State.driverTick_imem s)).trans hstart
    | halted h | faulted h | limit h =>
      rw [hout] at h
      cases h

/-- A step of the sequential driver is the next state of the run. -/
theorem SeqTrace.step (hT : SeqTrace T) (hstart : (T 0).startRefusal = none) (hdriver : (T 0).driver = .sequential)
    {n : Nat} (hout : (T n).outcome = .running) : step (T n) = .next (T (n + 1)) := by
  have driver : ∀ m, (T m).driver = .sequential := fun m => by
    induction m with
    | zero => exact hdriver
    | succ m ih => exact (sequentialStep_next_ends (hT.next m)).fixed.2.2.trans ih
  rw [step_of_sequential ((State.startRefusal_congr (hT.cfg n) (hT.imem n)).trans hstart) hout (driver n), hT.next]

theorem SeqTrace.run (hT : SeqTrace T) (hstart : (T 0).startRefusal = none) (hdriver : (T 0).driver = .sequential)
    {n : Nat} (hout : ∀ m, m < n → (T m).outcome = .running) : Host.Core.run Sys2Proof.core n (T 0) = .next (T n) := by
  suffices h : ∀ k m, m + k = n → Host.Core.run Sys2Proof.core k (T m) = .next (T n) from h n 0 (Nat.zero_add n)
  intro k
  induction k with
  | zero =>
    rintro m rfl
    rfl
  | succ k ih =>
    intro m hm
    exact (run_succ_of_next Sys2Proof.core (hT.step hstart hdriver (hout m (by omega)))).trans (ih (m + 1) (by omega))

/-! ### The loaded state -/

theorem robRing_resetWith {c : Config} (hc : 1 ≤ c.robCap) (imem : List RecordWord) (mem : List Host.Cell)
    (entry : Word) (regs : Vector Word 32) : RobRing (State.resetWith c imem mem entry regs) where
  size := List.length_replicate
  head := hc
  count := Nat.zero_le _
  tail := (Nat.zero_mod _).symm
  valid t _ := by
    have hinvalid : ((State.resetWith c imem mem entry regs).robAt t).valid = false :=
      forall_entryAt (P := fun x : RobEntry => x.valid = false)
        (fun x hx => by
          rcases List.mem_cons.1 hx with rfl | hx
          · rfl
          · rw [List.eq_of_mem_replicate hx]
            rfl) t
    rw [hinvalid]
    exact ⟨nofun, fun h => absurd h (Nat.not_lt_zero _)⟩

theorem drained_resetWith {c : Config} (hc : 1 ≤ c.robCap) (imem : List RecordWord) (mem : List Host.Cell)
    (entry : Word) (regs : Vector Word 32) : (State.resetWith c imem mem entry regs).Drained where
  ring := robRing_resetWith hc imem mem entry regs
  count := rfl
  ready r := by rw [State.regEntry_resetWith]
  rs k e he := by cases k <;> rw [List.eq_of_mem_replicate he] <;> rfl
  fu k u hu := by cases k <;> rw [List.eq_of_mem_replicate hu] <;> rfl
  cdbq := rfl
  lsq := rfl
  mport := rfl
  dl := rfl
  fb := rfl
  pc := rfl

/-- A program is loaded where the configuration and the text are accepted (R199, R200). -/
theorem State.load_startRefusal {c : Config} {p : Program} {s : State} (h : State.load c p = .next s) :
    s.startRefusal = none ∧ 1 ≤ c.robCap := by
  obtain ⟨rfl, -⟩ := State.load_next h
  unfold State.load at h
  split at h
  · cases h
  · rename_i hc
    split at h
    · cases h
    · rename_i hp
      have hvalid : c.valid = true := by simpa using hc
      have hlegal : textLegal c.textBase p.text = true := by
        simp only [Bool.not_eq_false, Program.valid, Bool.and_eq_true] at hp
        exact hp.1.1.1
      refine ⟨?_, ?_⟩
      · rw [State.startRefusal]
        show (if c.valid = false then _ else if textLegal c.textBase p.text = false then _ else _) = _
        rw [hvalid, hlegal]
        rfl
      · rw [Config.valid_iff] at hvalid
        tauto

theorem State.load_memWf {c : Config} {p : Program} {s : State} (h : State.load c p = .next s) :
    memWf s.mem = true := by
  obtain ⟨rfl, -⟩ := State.load_next h
  exact (placeItems_spec c.byteOrder p.data ⟨p.dataBase, []⟩ rfl).1

theorem sim_of_load {c : Config} {p : Program} {s : State} (h : State.load c p = .next s) (hT : T 0 = s.sequentially) :
    Sim T s := by
  have hcap := (State.load_startRefusal h).2
  obtain ⟨rfl, -⟩ := State.load_next h
  refine (drained_resetWith hcap _ _ _ _).sim ⟨?_, ?_, ?_, fun r => ?_, ?_, fun m hm => absurd hm (Nat.not_lt_zero _)⟩ ?_
  · rw [hT]; rfl
  · rw [hT]; rfl
  · exact (congrArg State.archPc hT).symm
  · exact (congrArg (fun t => State.reg t r) hT).symm
  · exact (congrArg State.mem hT).symm
  · exact congrArg State.outcome hT

/-! ### The obligation -/

theorem ArchOk.sameArch {s : State} (h : ArchOk T s) : SameArch s (T s.window.base) where
  regs r := (h.regs r).symm
  bytes a := by rw [State.readByte, State.readByte, h.mem]
  pc := h.archPc.symm

theorem Agrees.halted_iff {s : State} (h : Agrees T s) :
    s.outcome = .halted ↔ (T s.window.base).outcome = .halted := by
  cases h with
  | running h sim => rw [h, sim.running]
  | halted h _ ends => rw [h, ends]
  | faulted h _ goes _ => rw [h, goes]; exact ⟨nofun, nofun⟩
  | limit h _ goes => rw [h, goes]; exact ⟨nofun, nofun⟩

theorem Agrees.next_fault {s : State} {c : Cause} {pc : Word} {q : Nat} {a : Word} (h : Agrees T s)
    (hs : s.outcome = .faulted c pc q a) :
    (T s.window.base).outcome = .running ∧ ∃ q', (T (s.window.base + 1)).outcome = .faulted c pc q' a := by
  cases h with
  | running h | halted h | limit h =>
    rw [hs] at h
    cases h
  | faulted h _ goes next =>
    rw [hs] at h
    cases h
    exact ⟨goes, next⟩

/-- Settles O60: the simulation above, from the loaded state. -/
theorem pipelineEqualsSequential : Obligations.PipelineEqualsSequential := by
  intro c p s₀ hload n s hrun
  obtain ⟨T, hT, h0⟩ := SeqTrace.exists_of s₀.sequentially (show memWf s₀.mem = true from State.load_memWf hload)
  have hstart := (State.load_startRefusal hload).1
  obtain ⟨hs₀, -⟩ := State.load_next hload
  have hdriver : s₀.driver = .pipeline := by rw [hs₀]; rfl
  have hout : s₀.outcome = .running := by rw [hs₀]; rfl
  have hagrees := (Agrees.running hout (sim_of_load hload h0)).run hT hstart hdriver hrun
  have hstart' : (T 0).startRefusal = none := by rw [h0]; exact hstart
  have hdriver' : (T 0).driver = .sequential := by rw [h0]; rfl
  refine ⟨T s.window.base, ?_, hagrees.arch.sameArch, hagrees.halted_iff, fun cause pc q addr hfault => ?_⟩
  · rw [← h0]
    exact hT.run hstart' hdriver' hagrees.arch.before
  · obtain ⟨goes, q', hq⟩ := hagrees.next_fault hfault
    exact ⟨T (s.window.base + 1), q', hT.step hstart' hdriver' goes, hq⟩

end Sys2Proof.Machine
end

section
/-!
SUPPORT. The branch-target buffer and the pattern table: the entry a lookup finds, the entry an insert takes, and the
counter an update moves (R107, R110, R111).
-/

namespace Sys2Proof.Machine

/-! ### The first entry of a table -/

theorem exists_lt_of_mem_take {α : Type} {l : List α} {i : Nat} {x : α} (h : x ∈ l.take i) :
    ∃ j, j < i ∧ l[j]? = some x := by
  obtain ⟨j, hj, rfl⟩ := List.mem_take_iff_getElem.1 h
  exact ⟨j, by omega, List.getElem?_eq_getElem _⟩

theorem firstIdx_eq_some_iff {α : Type} {p : α → Bool} {l : List α} {i : Nat} :
    firstIdx p l = some i ↔ (∃ x, l[i]? = some x ∧ p x = true) ∧ ∀ y, y ∈ l.take i → p y = false := by
  constructor
  · intro h
    obtain ⟨x, hx, hp, before⟩ := firstIdx_some h
    refine ⟨⟨x, hx, hp⟩, fun y hy => ?_⟩
    obtain ⟨j, hj, hget⟩ := exists_lt_of_mem_take hy
    exact before j y hj hget
  · rintro ⟨⟨x, hx, hp⟩, before⟩
    exact firstIdx_eq_some hx hp before

/-- An update leaves the entries before it alone. -/
theorem take_updateAt {α : Type} (f : α → α) (l : List α) (i : Nat) : (updateAt f l i).take i = l.take i := by
  refine List.ext_getElem? fun j => ?_
  rw [List.getElem?_take, List.getElem?_take, getElem?_updateAt]
  split
  · rw [if_neg (by omega)]
  · rfl

/-! ### Lookup -/

theorem btbMatches_iff (pc : Word) (e : BtbEntry) : btbMatches pc e = true ↔ e.valid = true ∧ e.pc = pc := by
  simp [btbMatches]

theorem btbMatches_eq_false_iff (pc : Word) (e : BtbEntry) :
    btbMatches pc e = false ↔ ¬ (e.valid = true ∧ e.pc = pc) := by
  rw [← btbMatches_iff, Bool.not_eq_true]

/-- A pc is found at the first valid entry that holds it (R110). -/
theorem btbFind_eq_some_iff (p : Predictor) (pc : Word) (i : Nat) :
    btbFind p pc = some i ↔ (∃ e, p.btb[i]? = some e ∧ e.valid = true ∧ e.pc = pc) ∧
      ∀ x, x ∈ p.btb.take i → ¬ (x.valid = true ∧ x.pc = pc) := by
  simp only [btbFind, firstIdx_eq_some_iff, btbMatches_iff, btbMatches_eq_false_iff]

theorem btbFind_eq_none_iff (p : Predictor) (pc : Word) :
    btbFind p pc = none ↔ ∀ e, e ∈ p.btb → e.valid = true → e.pc ≠ pc := by
  simp only [btbFind, firstIdx_none, btbMatches_eq_false_iff, not_and, ne_eq]

theorem btbLookup_of_find_none {p : Predictor} {pc : Word} (h : btbFind p pc = none) : btbLookup p pc = (none, p) := by
  rw [btbLookup, h]

/-- A lookup that finds an entry gives its target and stamps it (R110). -/
theorem btbLookup_of_find {p : Predictor} {pc : Word} {i : Nat} {e : BtbEntry} (h : btbFind p pc = some i)
    (he : p.btb[i]? = some e) :
    btbLookup p pc = (some e.target,
      { p with btb := updateAt (fun e => { e with lru := p.btbStamp + 1 }) p.btb i, btbStamp := p.btbStamp + 1 }) := by
  rw [btbLookup, h]
  dsimp only
  rw [entryAt_of_getElem? he]

/-! ### Insert -/

/-- The choice of an insert (R110): `BtbChoice p pc i old` says that the insert of `pc` takes position `i`, which holds
`old`, as the first entry for `pc`, or as the first invalid one, or as the first with the lowest stamp. -/
inductive BtbChoice (p : Predictor) (pc : Word) (i : Nat) (old : BtbEntry) : Prop where
  | found (valid : old.valid = true) (holds : old.pc = pc)
    (first : ∀ e, e ∈ p.btb.take i → ¬ (e.valid = true ∧ e.pc = pc))
  | invalid (absent : ∀ e, e ∈ p.btb → e.valid = true → e.pc ≠ pc) (invalid : old.valid = false)
    (first : ∀ e, e ∈ p.btb.take i → e.valid = true)
  | oldest (absent : ∀ e, e ∈ p.btb → e.valid = true → e.pc ≠ pc) (full : ∀ e, e ∈ p.btb → e.valid = true)
    (least : ∀ e, e ∈ p.btb → old.lru ≤ e.lru) (first : ∀ e, e ∈ p.btb.take i → old.lru < e.lru)

theorem btbSlot_choice {p : Predictor} (hne : p.btb ≠ []) (pc : Word) :
    ∃ old, p.btb[btbSlot p pc]? = some old ∧ BtbChoice p pc (btbSlot p pc) old := by
  unfold btbSlot
  split
  · rename_i i hfind
    obtain ⟨⟨old, hold, hvalid, hpc⟩, hfirst⟩ := (btbFind_eq_some_iff ..).1 hfind
    exact ⟨old, hold, .found hvalid hpc hfirst⟩
  · rename_i hnone
    have absent := (btbFind_eq_none_iff ..).1 hnone
    split
    · rename_i i hinvalid
      obtain ⟨⟨old, hold, hv⟩, hfirst⟩ := firstIdx_eq_some_iff.1 hinvalid
      exact ⟨old, hold, .invalid absent (by simpa using hv) (by simpa using hfirst)⟩
    · rename_i hfull
      have full : ∀ e, e ∈ p.btb → e.valid = true := by simpa using firstIdx_none.1 hfull
      split
      · rename_i i k hlow
        obtain ⟨old, hold, hkey, hmin⟩ := lowestIdx_some hlow
        obtain rfl : old.lru = k := Option.some.inj hkey
        refine ⟨old, hold, .oldest absent full (fun e he => hmin e e.lru he rfl) fun e he => ?_⟩
        obtain ⟨j, hj, hget⟩ := exists_lt_of_mem_take he
        exact lowestIdx_first hlow j e e.lru hj hget rfl
      · rename_i hlow
        obtain ⟨e, he⟩ := List.exists_mem_of_ne_nil p.btb hne
        exact nomatch lowestIdx_none.1 hlow e he

namespace BtbChoice

variable {p : Predictor} {pc : Word} {i : Nat} {old : BtbEntry}

/-- No entry before the one an insert takes holds the pc. -/
theorem absent_before (h : BtbChoice p pc i old) : ∀ e, e ∈ p.btb.take i → ¬ (e.valid = true ∧ e.pc = pc) := by
  cases h with
  | found _ _ first => exact first
  | invalid absent _ _ => exact fun e he ⟨hv, hpc⟩ => absent e (List.mem_of_mem_take he) hv hpc
  | oldest absent _ _ _ => exact fun e he ⟨hv, hpc⟩ => absent e (List.mem_of_mem_take he) hv hpc

theorem of_present (h : BtbChoice p pc i old) (hex : ∃ e, e ∈ p.btb ∧ e.valid = true ∧ e.pc = pc) :
    old.valid = true ∧ old.pc = pc ∧ ∀ e, e ∈ p.btb.take i → ¬ (e.valid = true ∧ e.pc = pc) := by
  obtain ⟨e, he, hv, hpc⟩ := hex
  cases h with
  | found valid holds first => exact ⟨valid, holds, first⟩
  | invalid absent _ _ => exact absurd hpc (absent e he hv)
  | oldest absent _ _ _ => exact absurd hpc (absent e he hv)

theorem of_absent (h : BtbChoice p pc i old) (hold : old ∈ p.btb)
    (absent : ∀ e, e ∈ p.btb → e.valid = true → e.pc ≠ pc) (hex : ∃ e, e ∈ p.btb ∧ e.valid = false) :
    old.valid = false ∧ ∀ e, e ∈ p.btb.take i → e.valid = true := by
  obtain ⟨e, he, hinvalid⟩ := hex
  cases h with
  | found valid holds _ => exact absurd holds (absent old hold valid)
  | invalid _ invalid first => exact ⟨invalid, first⟩
  | oldest _ full _ _ => exact absurd ((full e he).symm.trans hinvalid) (by decide)

theorem of_full (h : BtbChoice p pc i old) (hold : old ∈ p.btb)
    (full : ∀ e, e ∈ p.btb → e.valid = true ∧ e.pc ≠ pc) :
    (∀ e, e ∈ p.btb → old.lru ≤ e.lru) ∧ ∀ e, e ∈ p.btb.take i → old.lru < e.lru := by
  obtain ⟨hvalid, hpc⟩ := full old hold
  cases h with
  | found _ holds _ => exact absurd holds hpc
  | invalid _ invalid _ => exact absurd (hvalid.symm.trans invalid) (by decide)
  | oldest _ _ least first => exact ⟨least, first⟩

end BtbChoice

/-- An insert writes the entry it takes. -/
theorem getElem?_btbInsert_slot {p : Predictor} (hne : p.btb ≠ []) (pc target : Word) :
    (btbInsert p pc target).btb[btbSlot p pc]? = some ⟨true, pc, target, p.btbStamp + 1⟩ := by
  obtain ⟨old, hold, -⟩ := btbSlot_choice hne pc
  rw [btbInsert, getElem?_updateAt, if_pos rfl, hold]
  rfl

theorem getElem?_btbInsert_of_ne (p : Predictor) (pc target : Word) {i : Nat} (h : i ≠ btbSlot p pc) :
    (btbInsert p pc target).btb[i]? = p.btb[i]? := by
  rw [btbInsert, getElem?_updateAt, if_neg h]

/-- After an insert the pc is found where the insert put it: the entries before that do not hold it. -/
theorem btbFind_btbInsert {p : Predictor} (hne : p.btb ≠ []) (pc target : Word) :
    btbFind (btbInsert p pc target) pc = some (btbSlot p pc) := by
  obtain ⟨old, -, hchoice⟩ := btbSlot_choice hne pc
  refine (btbFind_eq_some_iff ..).2 ⟨⟨_, getElem?_btbInsert_slot hne pc target, rfl, rfl⟩, ?_⟩
  rw [btbInsert, take_updateAt]
  exact hchoice.absent_before

theorem btbLookup_btbInsert {p : Predictor} (hne : p.btb ≠ []) (pc target : Word) :
    (btbLookup (btbInsert p pc target) pc).1 = some target := by
  rw [btbLookup_of_find (btbFind_btbInsert hne pc target) (getElem?_btbInsert_slot hne pc target)]

/-- Settles O57: the entry an insert takes and writes, and the entry a lookup finds and stamps. -/
theorem btbRemembersTargets : Obligations.BtbRemembersTargets := by
  refine ⟨fun p pc target hne => ?_, fun p pc i e he hvalid hpc hfirst => ?_, fun p pc habsent => ?_,
    btbFind_eq_some_iff⟩
  · obtain ⟨old, hold, hchoice⟩ := btbSlot_choice hne pc
    have hmem := List.mem_of_getElem? hold
    exact ⟨btbLookup_btbInsert hne pc target, length_updateAt .., fun i e hi he =>
      (getElem?_btbInsert_of_ne p pc target hi).trans he, rfl, getElem?_btbInsert_slot hne pc target, old, hold,
      hchoice.of_present, hchoice.of_absent hmem, hchoice.of_full hmem⟩
  · have hfind := (btbFind_eq_some_iff p pc i).2 ⟨⟨e, he, hvalid, hpc⟩, hfirst⟩
    rw [btbLookup_of_find hfind he]
    refine ⟨rfl, rfl, ?_, fun j hj => ?_, rfl, rfl⟩
    · rw [getElem?_updateAt, if_pos rfl, he, Option.map_some, hvalid, hpc]
    · rw [getElem?_updateAt, if_neg hj]
  · exact btbLookup_of_find_none ((btbFind_eq_none_iff p pc).2 habsent)

/-! ### Training -/

/-- A step of a counter adds or takes off one, and saturates at 3 and at 0 (R111). -/
theorem counterStep_toNat (v : BitVec 2) (taken : Bool) :
    (counterStep v taken).toNat = if taken then min 3 (v.toNat + 1) else v.toNat - 1 := by
  revert v taken
  decide

/-- The counters after an update are those after its pattern-table part (R111 (1)). -/
theorem predictorUpdate_pht (c : Config) (p : Predictor) (e : RobEntry) :
    (predictorUpdate c p e).pht = (phtUpdate c p e).pht := by
  rw [predictorUpdate, btbUpdate]
  split <;> rfl

/-- The pattern-table part of an update leaves the BTB alone (R111 (1)). -/
theorem phtUpdate_btb (c : Config) (p : Predictor) (e : RobEntry) :
    (phtUpdate c p e).btb = p.btb ∧ (phtUpdate c p e).btbStamp = p.btbStamp := by
  unfold phtUpdate
  split <;> exact ⟨rfl, rfl⟩

/-- An insert depends on the BTB and its stamp alone. -/
theorem btbInsert_congr {p q : Predictor} (hbtb : q.btb = p.btb) (hstamp : q.btbStamp = p.btbStamp) (pc target : Word) :
    (btbInsert q pc target).btb = (btbInsert p pc target).btb ∧
      (btbInsert q pc target).btbStamp = (btbInsert p pc target).btbStamp := by
  have hslot : btbSlot q pc = btbSlot p pc := by
    unfold btbSlot btbFind
    rw [hbtb]
  unfold btbInsert
  rw [hslot, hbtb, hstamp]
  exact ⟨rfl, rfl⟩

theorem predictorUpdate_of_taken (c : Config) (p : Predictor) {e : RobEntry} (h : e.actualTaken = true) :
    predictorUpdate c p e = btbInsert (phtUpdate c p e) e.pc e.actualNextPc := if_pos h

theorem predictorUpdate_of_not_taken (c : Config) (p : Predictor) {e : RobEntry} (h : e.actualTaken = false) :
    predictorUpdate c p e = phtUpdate c p e := if_neg (by simp [h])

/-- A conditional branch moves the counter it was predicted with, unless the predictor is always-taken (R111). -/
theorem phtUpdate_of_conditional {c : Config} {e : RobEntry} (p : Predictor) {op : Opcode} (hop : e.op = some op)
    (hcond : isConditional op = true) (htype : c.bpType ≠ .alwaysTaken) :
    phtUpdate c p e =
      { p with pht := updateAt (fun v => counterStep v e.actualTaken) p.pht (phtIndex c e.pc e.ghrSnap) } :=
  if_pos ⟨by rw [hop]; exact hcond, htype⟩

theorem phtUpdate_of_not {c : Config} {e : RobEntry} (p : Predictor) {op : Opcode} (hop : e.op = some op)
    (h : isConditional op = false ∨ c.bpType = .alwaysTaken) : phtUpdate c p e = p := by
  refine if_neg fun ⟨hcond, htype⟩ => ?_
  rw [hop] at hcond
  rcases h with hnot | halways
  · exact absurd (hcond.symm.trans hnot) (by decide)
  · exact htype halways

/-- An update moves no counter but the one at the index of the prediction (R111). -/
theorem phtAt_phtUpdate_of_ne (c : Config) (p : Predictor) (e : RobEntry) {i : Nat}
    (hi : i ≠ phtIndex c e.pc e.ghrSnap) :
    phtAt (phtUpdate c p e) i = phtAt p i := by
  unfold phtUpdate
  split
  · rw [phtAt, entryAt_updateAt, if_neg fun h => hi h.1, phtAt]
  · rfl

/-- Settles O58: who makes an update, the counter it moves and the target it stores. -/
theorem predictorTraining : Obligations.PredictorTraining := by
  refine ⟨State.commitOne_pred, fun c p e op hop => ?_⟩
  obtain ⟨hbtb, hstamp⟩ := phtUpdate_btb c p e
  refine ⟨fun i hi => ?_, fun htaken hne => ?_, fun hcond htype hlt => ?_, fun hnot => ?_, fun hnot => ?_,
    predictorUpdate_ghr c p e⟩
  · rw [phtAt, predictorUpdate_pht]
    exact phtAt_phtUpdate_of_ne c p e hi
  · rw [predictorUpdate_of_taken c p htaken]
    exact ⟨btbLookup_btbInsert (by rwa [hbtb]) .., btbInsert_congr hbtb hstamp ..⟩
  · rw [phtAt, predictorUpdate_pht, phtUpdate_of_conditional p hop hcond htype, entryAt_updateAt, if_pos ⟨rfl, hlt⟩,
      counterStep_toNat, phtAt]
  · rw [predictorUpdate_pht, phtUpdate_of_not p hop hnot]
  · rw [predictorUpdate_of_not_taken c p hnot]
    exact ⟨hbtb, hstamp⟩

end Sys2Proof.Machine
end

section
/-!
SUPPORT. What fetch predicts, by the direction of the record and the BTB (R107, R108), and the ticks fetch stalls (R104,
R106).
-/

namespace Sys2Proof.Machine

/-! ### Prediction -/

theorem phtIndex_of_bimodal {c : Config} (h : c.bpType = .bimodal) (pc : Word) (history : Nat) :
    phtIndex c pc history = pc.toNat / 4 % c.bpEntries := by
  rw [phtIndex, h, Nat.shiftRight_eq_div_pow]

theorem phtIndex_of_gshare {c : Config} (h : c.bpType = .gshare) (pc : Word) (history : Nat) :
    phtIndex c pc history = (pc.toNat / 4 ^^^ history) % c.bpEntries := by
  rw [phtIndex, h, Nat.shiftRight_eq_div_pow]

theorem predictDirection_iff (c : Config) (p : Predictor) (pc : Word) :
    predictDirection c p pc = true ↔ c.bpType = .alwaysTaken ∨ 2 ≤ (phtAt p (phtIndex c pc p.ghr)).toNat := by
  unfold predictDirection
  cases c.bpType <;> simp

theorem isUnconditional_of_isConditional {op : Opcode} (h : isConditional op = true) : isUnconditional op = false := by
  revert h
  cases op <;> decide

/-- The direction of a record is taken (R107, R108): it is a control instruction, and if it is conditional the predictor
is always-taken or its counter is at least 2. -/
structure DirectionTaken (c : Config) (p : Predictor) (r : InstrRecord) (pc : Word) : Prop where
  control : isControl r.op = true
  counter : isConditional r.op = true → c.bpType = .alwaysTaken ∨ 2 ≤ (phtAt p (phtIndex c pc p.ghr)).toNat

section

variable {c : Config} {p : Predictor} {r : InstrRecord} {pc : Word}

theorem DirectionTaken.of_unconditional (h : isUnconditional r.op = true) : DirectionTaken c p r pc where
  control := by simp [isControl, h]
  counter hcond := absurd (h.symm.trans (isUnconditional_of_isConditional hcond)) (by decide)

theorem DirectionTaken.of_conditional (h : isConditional r.op = true)
    (hcounter : c.bpType = .alwaysTaken ∨ 2 ≤ (phtAt p (phtIndex c pc p.ghr)).toNat) : DirectionTaken c p r pc where
  control := by simp [isControl, h]
  counter _ := hcounter

/-- The test `predict` makes before it reads the BTB. -/
theorem directionTaken_iff :
    (isUnconditional r.op || (isConditional r.op && predictDirection c p pc)) = true ↔ DirectionTaken c p r pc := by
  rw [Bool.or_eq_true, Bool.and_eq_true, predictDirection_iff]
  constructor
  · rintro (huncond | ⟨hcond, hcounter⟩)
    · exact .of_unconditional huncond
    · exact .of_conditional hcond hcounter
  · rintro ⟨hcontrol, hcounter⟩
    rw [isControl, Bool.or_eq_true] at hcontrol
    exact hcontrol.symm.imp_right fun hcond => ⟨hcond, hcounter hcond⟩

/-- A record whose direction is not taken is predicted not taken, and reads no BTB (R107). -/
theorem predict_of_not_taken (h : ¬ DirectionTaken c p r pc) : predict c p r pc = (.notTaken, p) :=
  if_neg (mt directionTaken_iff.1 h)

/-- On a BTB miss a record whose direction is taken goes to its own target with one stall tick, `jr` to the next pc
(R108). -/
theorem predict_of_find_none (h : DirectionTaken c p r pc) (miss : btbFind p pc = none) :
    predict c p r pc = (if r.op = .jr then .notTaken else ⟨true, r.imm, true⟩, p) := by
  rw [predict, if_pos (directionTaken_iff.2 h), btbLookup_of_find_none miss]
  dsimp only
  split <;> rfl

/-- On a BTB hit it goes to the target of the BTB (R108). -/
theorem predict_of_find (h : DirectionTaken c p r pc) {i : Nat} {e : BtbEntry} (hit : btbFind p pc = some i)
    (he : p.btb[i]? = some e) : predict c p r pc = (⟨true, e.target, false⟩, (btbLookup p pc).2) := by
  rw [predict, if_pos (directionTaken_iff.2 h), btbLookup_of_find hit he]

theorem predict_snd_of_taken (h : DirectionTaken c p r pc) : (predict c p r pc).2 = (btbLookup p pc).2 := by
  cases hfind : btbFind p pc with
  | none => rw [predict_of_find_none h hfind, btbLookup_of_find_none hfind]
  | some i =>
    obtain ⟨⟨e, he, -⟩, -⟩ := (btbFind_eq_some_iff ..).1 hfind
    rw [predict_of_find h hfind he]

/-- Every record but `jr` is predicted to its own target on a BTB miss. -/
theorem predict_own_target (h : DirectionTaken c p r pc) (miss : btbFind p pc = none) (hjr : r.op ≠ .jr) :
    (predict c p r pc).1 = ⟨true, r.imm, true⟩ := by
  rw [predict_of_find_none h miss, if_neg hjr]

end

/-- Settles O56: the index of a counter, the directions not taken, and the directions taken on a miss and on a hit. -/
theorem predictionRules : Obligations.PredictionRules := by
  intro c p r pc
  have not_taken : ¬ DirectionTaken c p r pc →
      (predict c p r pc).1 = ⟨false, 0, false⟩ ∧ (predict c p r pc).2 = p := by
    intro h
    rw [predict_of_not_taken h]
    exact ⟨rfl, rfl⟩
  refine ⟨fun h => ⟨fun htype => phtIndex_of_bimodal htype pc h, fun htype => phtIndex_of_gshare htype pc h⟩,
    fun hcontrol => not_taken fun h => ?_, fun hcond htype hlow => not_taken fun h => ?_, fun hjr miss => ?_,
    fun hjump miss => ?_, fun hcond hcounter miss => ?_, fun hcontrol hcounter => ⟨?_, fun i e hit he => ?_⟩⟩
  · exact absurd (h.control.symm.trans hcontrol) (by decide)
  · exact (h.counter hcond).elim htype (Nat.not_le_of_lt hlow)
  · rw [predict_of_find_none (.of_unconditional (by rw [hjr]; rfl)) miss, if_pos hjr]
    rfl
  · obtain ⟨huncond, hjr⟩ : isUnconditional r.op = true ∧ r.op ≠ .jr := by
      rcases hjump with hj | hjal
      · simp [hj, isUnconditional]
      · simp [hjal, isUnconditional]
    exact predict_own_target (.of_unconditional huncond) miss hjr
  · refine predict_own_target (.of_conditional hcond hcounter) miss fun hjr => ?_
    rw [hjr] at hcond
    exact absurd hcond (by decide)
  · exact predict_snd_of_taken ⟨hcontrol, hcounter⟩
  · rw [predict_of_find ⟨hcontrol, hcounter⟩ hit he]

/-! ### Stalls -/

/-- At the pc of a record that misses the I-cache, fetch fills the line and stalls (R104, R106). -/
theorem State.fetchStage_miss {s : State} (hstall : s.fetch.stall = 0) (hblocked : s.fetch.blocked = false)
    (hwidth : 0 < s.cfg.fetchWidth) (room : s.fb.length < s.cfg.fbCap) {i : Instr} (hi : s.instrAt s.fetch.pc = some i)
    (miss : hitWay s.cfg.icache s.icache s.fetch.pc.toNat = none) : s.fetchStage = s.afterMiss := by
  obtain ⟨n, hn⟩ := Nat.exists_eq_add_one_of_ne_zero (Nat.ne_of_gt hwidth)
  rw [State.fetchStage_eq hstall hblocked, hn, fetchLoop_miss room hi miss]

/-- A miss counts an access and no hit (R67). -/
theorem State.afterMiss_metrics {s : State} (miss : hitWay s.cfg.icache s.icache s.fetch.pc.toNat = none) :
    s.afterMiss.metrics = { s.metrics with icacheAccesses := s.metrics.icacheAccesses + 1 } := by
  rw [State.afterMiss, State.icacheRead_metrics, miss]
  rfl

/-- A stalled tick takes one tick off the stall, and counts it if its cause is a miss (R104, R106). -/
theorem State.fetchStage_stalled {s : State} {n : Nat} (h : s.fetch.stall = n + 1) :
    s.fetchStage =
      { s with
        fetch := { s.fetch with stall := n }
        metrics := if s.fetch.stallCause = .icacheMiss then
            { s.metrics with stallIcacheMiss := s.metrics.stallIcacheMiss + 1 }
          else s.metrics } := by
  rw [State.fetchStage, if_pos (by omega), State.fetchStalled, h]
  rfl

theorem State.fetchStage_blocked {s : State} (hstall : s.fetch.stall = 0) (hblocked : s.fetch.blocked = true) :
    s.fetchStage = s := by
  rw [State.fetchStage, if_neg (not_not_intro hstall), if_pos hblocked]

/-- Settles O54: a fetch that misses, a stalled tick of either cause, and a blocked fetch. -/
theorem instructionCacheMissStalls : Obligations.InstructionCacheMissStalls := by
  refine ⟨fun s i hstall hblocked hwidth room hi miss => ?_, fun s n hstall hcause => ?_, fun s n hstall hcause => ?_,
    fun s => State.fetchStage_blocked⟩
  · have hmetrics := State.afterMiss_metrics miss
    rw [State.fetchStage_miss hstall hblocked hwidth room hi miss]
    exact ⟨rfl, rfl, rfl, rfl, rfl, by rw [hmetrics], by rw [hmetrics]⟩
  · rw [State.fetchStage_stalled hstall, if_pos hcause]
  · rw [State.fetchStage_stalled hstall, if_neg (by simp [hcause])]

end Sys2Proof.Machine
end

section
/-!
SUPPORT. The common data bus: which pending results it carries, what a result writes into its ROB entry, and which
waiting slots and which load it reaches (R120 to R122).
-/

namespace Sys2Proof.Machine

/-! ### The pending results in order -/

theorem insertBySeq_pairwise {r : CdbResult} {l : List CdbResult} (h : l.Pairwise (fun x y => x.seq ≤ y.seq)) :
    (insertBySeq r l).Pairwise (fun x y => x.seq ≤ y.seq) := by
  induction l with
  | nil => exact List.pairwise_singleton _ r
  | cons x xs ih =>
    obtain ⟨hx, hxs⟩ := List.pairwise_cons.1 h
    unfold insertBySeq
    split
    · rename_i hle
      refine List.pairwise_cons.2 ⟨fun y hy => ?_, h⟩
      rcases List.mem_cons.1 hy with rfl | hy
      · exact hle
      · exact le_trans hle (hx y hy)
    · rename_i hlt
      refine List.pairwise_cons.2 ⟨fun y hy => ?_, ih hxs⟩
      rcases List.mem_cons.1 ((insertBySeq_perm r xs).mem_iff.1 hy) with rfl | hy
      · exact Nat.le_of_not_le hlt
      · exact hx y hy

theorem sortBySeq_pairwise (l : List CdbResult) : (sortBySeq l).Pairwise (fun x y => x.seq ≤ y.seq) := by
  induction l with
  | nil => exact .nil
  | cons x xs ih => exact insertBySeq_pairwise ih

/-- The results the bus takes are no younger than those it leaves (R120). -/
theorem sortBySeq_take_le_drop {l : List CdbResult} {n : Nat} {r q : CdbResult} (hr : r ∈ (sortBySeq l).take n)
    (hq : q ∈ (sortBySeq l).drop n) : r.seq ≤ q.seq := by
  have hsorted := sortBySeq_pairwise l
  rw [← List.take_append_drop n (sortBySeq l)] at hsorted
  obtain ⟨-, -, hle⟩ := List.pairwise_append.1 hsorted
  exact hle r hr q hq

theorem State.broadcastStage_cdbq (s : State) : s.broadcastStage.cdbq = (sortBySeq s.cdbq).drop s.cfg.cdbWidth := by
  rw [State.broadcastStage, broadcastAll_cdbq]

/-! ### The ROB entry a result completes -/

@[simp] theorem RobEntry.broadcast_completed (e : RobEntry) (r : CdbResult) : (e.broadcast r).completed = true := by
  unfold RobEntry.broadcast
  split <;> rfl

@[simp] theorem RobEntry.broadcast_actualTaken (e : RobEntry) (r : CdbResult) :
    (e.broadcast r).actualTaken = r.actualTaken := by
  unfold RobEntry.broadcast
  split <;> rfl

@[simp] theorem RobEntry.broadcast_actualNextPc (e : RobEntry) (r : CdbResult) :
    (e.broadcast r).actualNextPc = r.actualNextPc := by
  unfold RobEntry.broadcast
  split <;> rfl

/-- A result without an exception gives its value (R120). -/
theorem RobEntry.broadcast_of_none (e : RobEntry) {r : CdbResult} (h : r.exception = none) :
    (e.broadcast r).value = r.value ∧ (e.broadcast r).exception = e.exception := by
  rw [RobEntry.broadcast, h]
  exact ⟨rfl, rfl⟩

/-- A result with an exception gives its cause and its address (R122). -/
theorem RobEntry.broadcast_of_some (e : RobEntry) {r : CdbResult} {c : Cause} (h : r.exception = some c) :
    (e.broadcast r).exception = some c ∧ (e.broadcast r).excAddr = r.excAddr := by
  rw [RobEntry.broadcast, h]
  exact ⟨rfl, rfl⟩

/-- Settles O49: the pending results in order of `seq`, cut at the width of the bus, and each one's broadcast. -/
theorem busTakesLowestSequence : Obligations.BusTakesLowestSequence := by
  intro s
  dsimp only
  rw [State.broadcastStage_cdbq]
  obtain ⟨-, completed, -, others, own⟩ := broadcastAll_rob_spec ((sortBySeq s.cdbq).take s.cfg.cdbWidth)
    { s with cdbq := (sortBySeq s.cdbq).drop s.cfg.cdbWidth }
  refine ⟨by simp, fun r hr q hq => sortBySeq_take_le_drop hr hq, ?_, completed, fun hdistinct r hr hlt => ?_, others⟩
  · rw [List.take_append_drop]
    exact sortBySeq_perm _
  · have hrob : s.broadcastStage.robAt r.rob = (s.robAt r.rob).broadcast r := own hdistinct r hr hlt
    rw [hrob]
    exact ⟨RobEntry.broadcast_actualTaken .., RobEntry.broadcast_actualNextPc ..,
      RobEntry.broadcast_of_none _, fun _ => RobEntry.broadcast_of_some _⟩

/-! ### One broadcast -/

theorem State.robAt_broadcastOne (s : State) (r : CdbResult) (i : Nat) :
    (s.broadcastOne r).robAt i = if i = r.rob ∧ i < s.rob.length then (s.robAt i).broadcast r else s.robAt i := by
  rw [State.robAt, State.broadcastOne_rob, entryAt_updateAt]
  rfl

theorem State.broadcastOne_lsq (s : State) (r : CdbResult) :
    (s.broadcastOne r).lsq = match r.lsq with
      | some l => setLoadState .done l s.lsq
      | none => s.lsq := by
  cases hexc : r.exception <;> cases hlsq : r.lsq <;>
    simp only [State.broadcastOne, State.markLoadDone, hexc, hlsq, State.wake_lsq, State.updateRob_lsq]

theorem Operand.wake_eq (t : Nat) (v : Word) (o : Operand) :
    o.wake t v = if o.ready = false ∧ o.tag = t then ⟨true, v, o.tag⟩ else o := rfl

/-- Without an exception every entry of every station is offered the value (R121). -/
theorem State.getElem?_broadcastOne_rs {s : State} {r : CdbResult} (h : r.exception = none) (k : FuClass) (j : Nat) :
    ((s.broadcastOne r).rs.get k)[j]? = ((s.rs.get k)[j]?).map (RsEntry.wake r.rob r.value) := by
  rw [State.broadcastOne_rs, h]
  dsimp only
  rw [PerClass.get_map, List.getElem?_map]

/-- Settles O50: the entry, the slots and the load that one broadcast reaches. -/
theorem broadcastWakesConsumers : Obligations.BroadcastWakesConsumers := by
  intro s r hlt
  dsimp only
  have hrob : (s.broadcastOne r).robAt r.rob = (s.robAt r.rob).broadcast r := by
    rw [State.robAt_broadcastOne, if_pos ⟨rfl, hlt⟩]
  rw [hrob]
  refine ⟨RobEntry.broadcast_completed .., RobEntry.broadcast_actualTaken .., RobEntry.broadcast_actualNextPc ..,
    fun hnone => (RobEntry.broadcast_of_none _ hnone).1, fun c hc => ?_, fun hnone k j e he hvalid => ?_,
    fun l hl => ?_, fun hl => ?_, fun i hi => ?_⟩
  · obtain ⟨hcause, haddr⟩ := RobEntry.broadcast_of_some (s.robAt r.rob) hc
    exact ⟨hcause, haddr, by rw [State.broadcastOne_rs, hc]⟩
  · have hwoken := State.getElem?_broadcastOne_rs (s := s) hnone k j
    rw [he, Option.map_some, RsEntry.wake_of_valid _ _ hvalid] at hwoken
    exact ⟨_, hwoken, hvalid, rfl, Operand.wake_eq .., Operand.wake_eq ..⟩
  · rw [State.broadcastOne_lsq, hl]
    rfl
  · rw [State.broadcastOne_lsq, hl]
  · rw [State.robAt_broadcastOne, if_neg fun c => hi c.1]

end Sys2Proof.Machine
end

section
/-!
SUPPORT. Selection: the oldest ready entry of a station, which entries go to which units, and the count of RAW hazards
(R113 to R116, R124).
-/

namespace Sys2Proof.Machine

/-! ### The oldest ready entry -/

theorem RsEntry.isReady_iff (e : RsEntry) : e.isReady = true ↔ e.a.ready = true ∧ e.b.ready = true :=
  Bool.and_eq_true_iff

theorem RsEntry.isReady_eq_false_iff (e : RsEntry) : e.isReady = false ↔ e.a.ready = false ∨ e.b.ready = false :=
  Bool.and_eq_false_iff

theorem selectKey_eq_some_iff {e : RsEntry} {q : Nat} :
    selectKey e = some q ↔ e.valid = true ∧ e.isReady = true ∧ e.seq = q := by
  simp [selectKey, and_assoc]

theorem selectKey_eq_none_iff {e : RsEntry} : selectKey e = none ↔ (e.valid = true → e.isReady = false) := by
  simp [selectKey]

/-- No valid entry of the station is ready. -/
def NoneReady (rs : List RsEntry) : Prop := ∀ x, x ∈ rs → x.valid = true → x.isReady = false

/-- `e` is valid and ready, and no ready entry of the station is older (R114). -/
structure OldestReady (rs : List RsEntry) (e : RsEntry) : Prop where
  valid : e.valid = true
  ready : e.isReady = true
  le : ∀ x, x ∈ rs → x.valid = true → x.isReady = true → e.seq ≤ x.seq

theorem oldestReady_eq_none_iff {rs : List RsEntry} : oldestReady rs = none ↔ NoneReady rs := by
  simp only [oldestReady, Option.map_eq_none_iff, lowestIdx_none, selectKey_eq_none_iff, NoneReady]

theorem oldestReady_oldest {rs : List RsEntry} {i : Nat} (h : oldestReady rs = some i) :
    ∃ e, rs[i]? = some e ∧ OldestReady rs e := by
  obtain ⟨⟨i', q⟩, hlow, rfl⟩ := Option.map_eq_some_iff.1 h
  obtain ⟨e, he, hkey, hmin⟩ := lowestIdx_some hlow
  obtain ⟨hvalid, hready, rfl⟩ := selectKey_eq_some_iff.1 hkey
  exact ⟨e, he, hvalid, hready, fun x hx hv hr => hmin x x.seq hx (selectKey_eq_some_iff.2 ⟨hv, hr, rfl⟩)⟩

/-! ### Selection for one class -/

/-- Selection takes the units `us` and the station `rs` to `us'` and `rs'`, with `n` entries dispatched: each free unit
in index order takes the oldest ready entry left, until none is (R114, R116). -/
inductive Selects (lat : Nat) : List FuUnit → List RsEntry → List FuUnit → List RsEntry → Nat → Prop where
  | done (rs : List RsEntry) : Selects lat [] rs [] rs 0
  | busy {u : FuUnit} {us us' : List FuUnit} {rs rs' : List RsEntry} {n : Nat} (busy : u.busy = true)
    (more : Selects lat us rs us' rs' n) : Selects lat (u :: us) rs (u :: us') rs' n
  | idle {u : FuUnit} {us : List FuUnit} {rs : List RsEntry} (free : u.busy = false) (none : NoneReady rs) :
    Selects lat (u :: us) rs (u :: us) rs 0
  | bind {u : FuUnit} {us us' : List FuUnit} {rs rs' : List RsEntry} {n i : Nat} {e : RsEntry} (free : u.busy = false)
    (entry : rs[i]? = some e) (oldest : OldestReady rs e)
    (more : Selects lat us (updateAt RsEntry.free rs i) us' rs' n) :
    Selects lat (u :: us) rs (bindUnit lat e :: us') rs' (n + 1)

theorem dispatchUnits_selects (lat : Nat) (k : FuClass) (us : List FuUnit) (rs : List RsEntry) :
    Selects lat us rs (dispatchUnits lat k us rs).1 (dispatchUnits lat k us rs).2.1
      (dispatchUnits lat k us rs).2.2 := by
  induction us generalizing rs with
  | nil => exact .done rs
  | cons u us ih =>
    unfold dispatchUnits
    split
    · exact .busy ‹_› (ih rs)
    · rename_i hfree
      rw [Bool.not_eq_true] at hfree
      split
      · rename_i hnone
        exact .idle hfree (oldestReady_eq_none_iff.1 hnone)
      · rename_i i hold
        obtain ⟨e, he, holdest⟩ := oldestReady_oldest hold
        rw [entryAt_of_getElem? he]
        exact .bind hfree he holdest (ih _)

/-- A valid entry of the station after one is freed was there before. -/
theorem getElem?_of_updateAt_free {rs : List RsEntry} {i j : Nat} {e : RsEntry}
    (h : (updateAt RsEntry.free rs i)[j]? = some e) (hvalid : e.valid = true) : rs[j]? = some e := by
  rw [getElem?_updateAt] at h
  split at h
  · obtain ⟨x, -, rfl⟩ := Option.map_eq_some_iff.1 h
    cases hvalid
  · exact h

namespace Selects

variable {lat n : Nat} {us us' : List FuUnit} {rs rs' : List RsEntry}

/-! ### How many are dispatched -/

theorem count_eq_min (h : Selects lat us rs us' rs' n) :
    n = min (us.countP fun u => !u.busy) (rs.countP fun e => e.valid && e.isReady) := by
  induction h with
  | done => exact (Nat.zero_min _).symm
  | busy busy _ ih => rw [List.countP_cons_of_neg (by simp [busy])]; exact ih
  | @idle u us rs _ none =>
    have hready : (rs.countP fun e => e.valid && e.isReady) = 0 :=
      List.countP_eq_zero.2 fun x hx => by simpa using none x hx
    rw [hready, Nat.min_zero]
  | bind free entry oldest _ ih =>
    have hready := countP_updateAt (fun e : RsEntry => e.valid && e.isReady) RsEntry.free entry
    rw [oldest.valid, oldest.ready] at hready
    simp only [RsEntry.free, Bool.and_self, Bool.false_and, Bool.false_eq_true, if_true, if_false,
      Nat.add_zero] at hready
    rw [List.countP_cons_of_pos (by simp [free]), ← hready, ih, Nat.add_min_add_right]

theorem countP_busy (h : Selects lat us rs us' rs' n) :
    us'.countP (fun u => u.busy) = us.countP (fun u => u.busy) + n := by
  induction h with
  | done | idle => rfl
  | busy _ _ ih =>
    simp only [List.countP_cons, ih]
    omega
  | @bind _ _ _ _ _ _ _ e free _ _ _ ih =>
    have hbound : (bindUnit lat e).busy = true := rfl
    simp only [List.countP_cons, ih, hbound, free, if_true, Bool.false_eq_true, if_false]
    omega

theorem countValid_add (h : Selects lat us rs us' rs' n) : countValid rs' + n = countValid rs := by
  induction h with
  | done | idle => rfl
  | busy _ _ ih => exact ih
  | @bind _ _ _ _ _ _ _ e _ entry oldest _ ih =>
    have hvalid := countP_updateAt (fun x : RsEntry => x.valid) RsEntry.free entry
    have hfreed : (RsEntry.free e).valid = false := rfl
    simp only [oldest.valid, hfreed, if_true, Bool.false_eq_true, if_false] at hvalid
    unfold countValid at ih ⊢
    omega

theorem length_units (h : Selects lat us rs us' rs' n) : us'.length = us.length := by
  induction h with
  | done | idle => rfl
  | busy _ _ ih | bind _ _ _ _ ih => simp [ih]

theorem length_entries (h : Selects lat us rs us' rs' n) : rs'.length = rs.length := by
  induction h with
  | done | idle => rfl
  | busy _ _ ih => exact ih
  | bind _ _ _ _ ih => rw [ih, length_updateAt]

/-- A selection that dispatches nothing leaves the station alone. -/
theorem entries_eq_of_zero (h : Selects lat us rs us' rs' 0) : rs' = rs := by
  generalize hn : 0 = n at h
  induction h with
  | done | idle => rfl
  | busy _ _ ih => exact ih hn
  | bind => cases hn

/-! ### What becomes of an entry -/

/-- An entry that is not valid is not touched. -/
theorem getElem?_invalid (h : Selects lat us rs us' rs' n) {i : Nat} {e : RsEntry} (he : rs[i]? = some e)
    (hinvalid : e.valid = false) : rs'[i]? = some e := by
  induction h with
  | done | idle => exact he
  | busy _ _ ih => exact ih he
  | @bind _ _ _ rs _ _ i' e' _ entry oldest _ ih =>
    refine ih ?_
    rw [getElem?_updateAt, if_neg, he]
    rintro rfl
    obtain rfl : e = e' := Option.some.inj (he.symm.trans entry)
    exact absurd oldest.valid (by simp [hinvalid])

/-- A valid entry after selection was there before. -/
theorem mem_of_valid (h : Selects lat us rs us' rs' n) {x : RsEntry} (hx : x ∈ rs')
    (hvalid : x.valid = true) : x ∈ rs := by
  induction h with
  | done | idle => exact hx
  | busy _ _ ih => exact ih hx
  | bind _ _ _ _ ih => exact mem_updateAt_free (ih hx) hvalid

/-- An entry is as before, or has left the station for a unit that was free, with no ready entry left older than it. -/
theorem entry_kept_or_bound (h : Selects lat us rs us' rs' n) {i : Nat} {e : RsEntry} (he : rs[i]? = some e) :
    rs'[i]? = some e ∨ (rs'[i]? = some e.free ∧ e.valid = true ∧ e.isReady = true ∧
      (∃ (j : Nat) (u : FuUnit), us[j]? = some u ∧ u.busy = false ∧ us'[j]? = some (bindUnit lat e)) ∧
      ∀ x, x ∈ rs' → x.valid = true → x.isReady = true → e.seq ≤ x.seq) := by
  induction h with
  | done | idle => exact .inl he
  | busy _ _ ih =>
    refine (ih he).imp_right ?_
    rintro ⟨left, valid, ready, ⟨j, u, hj⟩, least⟩
    exact ⟨left, valid, ready, ⟨j + 1, u, hj⟩, least⟩
  | @bind u _ _ rs _ _ i' e' free entry oldest more ih =>
    have hupdate := getElem?_updateAt RsEntry.free rs i' i
    by_cases hi : i = i'
    · obtain rfl : e = e' := Option.some.inj (he.symm.trans (hi ▸ entry))
      rw [if_pos hi, he, Option.map_some] at hupdate
      exact .inr ⟨more.getElem?_invalid hupdate rfl, oldest.valid, oldest.ready, ⟨0, u, rfl, free, rfl⟩,
        fun x hx hv => oldest.le x (mem_updateAt_free (more.mem_of_valid hx hv) hv) hv⟩
    · rw [if_neg hi, he] at hupdate
      refine (ih hupdate).imp_right ?_
      rintro ⟨left, valid, ready, ⟨j, u, hj⟩, least⟩
      exact ⟨left, valid, ready, ⟨j + 1, u, hj⟩, least⟩

/-! ### What becomes of a unit -/

theorem unit_of_busy (h : Selects lat us rs us' rs' n) {j : Nat} {u : FuUnit} (hu : us[j]? = some u)
    (busy : u.busy = true) : us'[j]? = some u := by
  induction h generalizing j with
  | done | idle => exact hu
  | busy _ _ ih =>
    cases j with
    | zero => exact hu
    | succ j => exact ih hu
  | bind free _ _ _ ih =>
    cases j with
    | zero =>
      obtain rfl : _ = u := Option.some.inj hu
      exact absurd busy (by simp [free])
    | succ j => exact ih hu

/-- A unit is left alone, or bound to a ready entry, which leaves the station. -/
theorem unit_kept_or_bound (h : Selects lat us rs us' rs' n) {j : Nat} {u u' : FuUnit} (hu : us[j]? = some u)
    (hu' : us'[j]? = some u') :
    u' = u ∨ ∃ (i : Nat) (e : RsEntry), rs[i]? = some e ∧ e.valid = true ∧ e.isReady = true ∧ u' = bindUnit lat e ∧
      rs'[i]? = some e.free := by
  induction h generalizing j with
  | done | idle => exact .inl (Option.some.inj (hu'.symm.trans hu))
  | busy _ _ ih =>
    cases j with
    | zero => exact .inl (Option.some.inj (hu'.symm.trans hu))
    | succ j => exact ih hu hu'
  | @bind _ _ _ rs _ _ i e _ entry oldest more ih =>
    cases j with
    | zero =>
      refine .inr ⟨i, e, entry, oldest.valid, oldest.ready, (Option.some.inj hu').symm, more.getElem?_invalid ?_ rfl⟩
      rw [getElem?_updateAt, if_pos rfl, entry, Option.map_some]
    | succ j =>
      refine (ih hu hu').imp_right ?_
      rintro ⟨i', e', he', hvalid, hrest⟩
      exact ⟨i', e', getElem?_of_updateAt_free he' hvalid, hvalid, hrest⟩

/-- Of two free units the first is bound if the second is, and to an entry that is no younger (R116). -/
theorem units_in_order (h : Selects lat us rs us' rs' n) {j₁ j₂ : Nat} {u₁ u₂ v₁ v₂ : FuUnit} (hj : j₁ < j₂)
    (hu₁ : us[j₁]? = some u₁) (hu₂ : us[j₂]? = some u₂) (free₁ : u₁.busy = false) (free₂ : u₂.busy = false)
    (hv₁ : us'[j₁]? = some v₁) (hv₂ : us'[j₂]? = some v₂) (bound₂ : v₂.busy = true) :
    v₁.busy = true ∧ v₁.seq ≤ v₂.seq := by
  have hne : v₂ ≠ u₂ := by
    rintro rfl
    exact absurd bound₂ (by simp [free₂])
  induction h generalizing j₁ j₂ with
  | done | idle => exact absurd (Option.some.inj (hv₂.symm.trans hu₂)) hne
  | busy busy _ ih =>
    obtain ⟨j₂, rfl⟩ := Nat.exists_eq_add_one_of_ne_zero (Nat.ne_zero_of_lt hj)
    cases j₁ with
    | zero =>
      obtain rfl : _ = u₁ := Option.some.inj hu₁
      exact absurd busy (by simp [free₁])
    | succ j₁ => exact ih (Nat.lt_of_succ_lt_succ hj) hu₁ hu₂ hv₁ hv₂
  | bind _ _ oldest more ih =>
    obtain ⟨j₂, rfl⟩ := Nat.exists_eq_add_one_of_ne_zero (Nat.ne_zero_of_lt hj)
    cases j₁ with
    | zero =>
      obtain rfl : _ = v₁ := Option.some.inj hv₁
      obtain rfl | ⟨i, e, he, hvalid, hready, rfl, -⟩ := more.unit_kept_or_bound hu₂ hv₂
      · exact absurd rfl hne
      · exact ⟨rfl, oldest.le e (List.mem_of_getElem? (getElem?_of_updateAt_free he hvalid)) hvalid hready⟩
    | succ j₁ => exact ih (Nat.lt_of_succ_lt_succ hj) hu₁ hu₂ hv₁ hv₂

end Selects

/-! ### Selection for every class -/

/-- What selection for class `k` answers in `s`: the units, the station and how many entries were dispatched. -/
def State.selection (s : State) (k : FuClass) : List FuUnit × List RsEntry × Nat :=
  dispatchUnits (s.cfg.fuLat.get k) k (s.fu.get k) (s.rs.get k)

theorem State.selection_selects (s : State) (k : FuClass) :
    Selects (s.cfg.fuLat.get k) (s.fu.get k) (s.rs.get k) (s.selection k).1 (s.selection k).2.1 (s.selection k).2.2 :=
  dispatchUnits_selects ..

/-- The state with every class's selection made. -/
def State.selected (s : State) : State :=
  { s with
    fu := ⟨(s.selection .alu).1, (s.selection .fpu).1, (s.selection .lsu).1⟩
    rs := ⟨(s.selection .alu).2.1, (s.selection .fpu).2.1, (s.selection .lsu).2.1⟩ }

/-- How many entries the selections of all classes dispatch. -/
def State.dispatchCount (s : State) : Nat :=
  (s.selection .alu).2.2 + (s.selection .fpu).2.2 + (s.selection .lsu).2.2

/-- No class's selection reads what another's writes, so each works on its own units and station as the stage found them
(R116). -/
theorem State.selectStage_eq (s : State) : s.selectStage = s.selected.countRaw s.dispatchCount := rfl

theorem State.selectStage_fu_get (s : State) (k : FuClass) : s.selectStage.fu.get k = (s.selection k).1 := by
  rw [State.selectStage_eq, State.countRaw_fu]
  cases k <;> rfl

theorem State.selectStage_rs_get (s : State) (k : FuClass) : s.selectStage.rs.get k = (s.selection k).2.1 := by
  rw [State.selectStage_eq, State.countRaw_rs]
  cases k <;> rfl

/-- Settles O48: selection as the relation `Selects`, and what it does to the counts, the units and the entries. -/
theorem dispatchWithinFreeUnits : Obligations.DispatchWithinFreeUnits := by
  refine ⟨fun s => ⟨rfl, fun k => ⟨(s.selection k).2.2, ?_⟩⟩, fun lat k us us' rs rs' n h => ?_⟩
  · rw [State.selectStage_fu_get, State.selectStage_rs_get]
    rfl
  · have select : Selects lat us rs us' rs' n := by
      have hs := dispatchUnits_selects lat k us rs
      rw [h] at hs
      exact hs
    exact ⟨select.count_eq_min, select.length_units, select.length_entries, select.countP_busy, select.countValid_add,
      fun _ _ => select.unit_of_busy, fun _ _ _ hu _ => select.unit_kept_or_bound hu,
      fun _ _ => select.entry_kept_or_bound, fun _ _ _ _ _ _ => select.units_in_order⟩

end Sys2Proof.Machine
end

section
/-!
SUPPORT. The count of RAW hazards: selection counts one or none, and no other part of a tick touches the counter (R113,
R114, R124).
-/

namespace Sys2Proof.Machine

/-! ### The execute stage -/

/-- Selection dispatches nothing exactly if no unit is free or no entry is ready. -/
theorem Selects.eq_zero_iff {lat n : Nat} {us us' : List FuUnit} {rs rs' : List RsEntry}
    (h : Selects lat us rs us' rs' n) : n = 0 ↔ (∀ u, u ∈ us → u.busy = true) ∨ NoneReady rs := by
  rw [h.count_eq_min, Nat.min_eq_zero_iff, List.countP_eq_zero, List.countP_eq_zero]
  simp [NoneReady]

theorem State.someWaiting_iff (s : State) :
    s.someWaiting = true ↔ ∃ k e, e ∈ s.rs.get k ∧ e.valid = true ∧ e.isReady = false := by
  have hclass : ∀ rs : List RsEntry, anyWaiting rs = true ↔ ∃ e, e ∈ rs ∧ e.valid = true ∧ e.isReady = false := by
    simp [anyWaiting]
  simp only [State.someWaiting, Bool.or_eq_true, hclass]
  constructor
  · rintro ((h | h) | h)
    exacts [⟨.alu, h⟩, ⟨.fpu, h⟩, ⟨.lsu, h⟩]
  · rintro ⟨k, h⟩
    cases k with
    | alu => exact .inl (.inl h)
    | fpu => exact .inl (.inr h)
    | lsu => exact .inr h

/-- A tick is a RAW hazard if it dispatches nothing, every class having no free unit or no ready entry, while an entry
waits for an operand (R124). -/
def State.RawHazard (s : State) : Prop :=
  (∀ k, (∀ u, u ∈ s.fu.get k → u.busy = true) ∨ NoneReady (s.rs.get k)) ∧
    ∃ k e, e ∈ s.rs.get k ∧ e.valid = true ∧ e.isReady = false

theorem State.dispatchCount_eq_zero_iff (s : State) :
    s.dispatchCount = 0 ↔ ∀ k, (∀ u, u ∈ s.fu.get k → u.busy = true) ∨ NoneReady (s.rs.get k) := by
  have hclass := fun k => (s.selection_selects k).eq_zero_iff
  simp only [← hclass, State.dispatchCount, Nat.add_eq_zero_iff]
  constructor
  · rintro ⟨⟨halu, hfpu⟩, hlsu⟩ k
    cases k <;> assumption
  · exact fun h => ⟨⟨h .alu, h .fpu⟩, h .lsu⟩

/-- A selection that dispatches nothing leaves the stations as it found them. -/
theorem State.selected_rs_of_zero {s : State} (h : s.dispatchCount = 0) : s.selected.rs = s.rs := by
  have hzero : ∀ k, (s.selection k).2.2 = 0 := fun k =>
    (s.selection_selects k).eq_zero_iff.2 (s.dispatchCount_eq_zero_iff.1 h k)
  have hrs : ∀ k, (s.selection k).2.1 = s.rs.get k := fun k =>
    Selects.entries_eq_of_zero (hzero k ▸ s.selection_selects k)
  simp only [State.selected, hrs]
  rfl

/-- The condition of the count, which the model tests after selection, speaks of the entries selection found. -/
theorem State.countRaw_condition_iff (s : State) :
    s.dispatchCount = 0 ∧ s.selected.someWaiting = true ↔ s.RawHazard := by
  unfold State.RawHazard
  rw [← s.dispatchCount_eq_zero_iff, State.someWaiting_iff]
  exact and_congr_right fun hzero => by rw [State.selected_rs_of_zero hzero]

theorem State.selectStage_rawCount_of_hazard {s : State} (h : s.RawHazard) :
    s.selectStage.metrics.stallRawHazard = s.metrics.stallRawHazard + 1 := by
  rw [State.selectStage_eq, State.countRaw, if_pos (s.countRaw_condition_iff.2 h)]
  rfl

theorem State.selectStage_rawCount_of_not_hazard {s : State} (h : ¬ s.RawHazard) :
    s.selectStage.metrics.stallRawHazard = s.metrics.stallRawHazard := by
  rw [State.selectStage_eq, State.countRaw, if_neg (mt s.countRaw_condition_iff.1 h)]
  rfl

theorem State.advanceUnit_rawCount (s : State) (k : FuClass) (j : Nat) :
    (s.advanceUnit k j).metrics.stallRawHazard = s.metrics.stallRawHazard := by
  obtain ⟨-, h⟩ | ⟨-, h⟩ | ⟨-, -, h⟩ := s.advanceUnit_cases k j <;> rw [h]
  · rw [State.setUnit_metrics, State.finishUnit_metrics]
    rfl
  · rfl

theorem advanceFrom_rawCount (k : FuClass) (n j : Nat) (s : State) :
    (advanceFrom k n j s).metrics.stallRawHazard = s.metrics.stallRawHazard := by
  induction n generalizing j s with
  | zero => rfl
  | succ n ih => rw [advanceFrom, ih, State.advanceUnit_rawCount]

theorem State.executeStage_rawCount (s : State) :
    s.executeStage.metrics.stallRawHazard = s.selectStage.metrics.stallRawHazard := by
  simp only [State.executeStage, State.broadcastStage_metrics, State.advanceStage, State.advanceClass,
    advanceFrom_rawCount]

/-! ### The other stages -/

theorem State.commitOne_rawCount (s : State) (e : RobEntry) :
    (s.commitOne e).metrics.stallRawHazard = s.metrics.stallRawHazard := by
  have control : ∀ t : State, (t.commitControl e).metrics.stallRawHazard = t.metrics.stallRawHazard := fun t => by
    unfold State.commitControl
    split <;> rfl
  have store : ∀ t : State, (t.commitStore e).metrics.stallRawHazard = t.metrics.stallRawHazard := fun t => by
    unfold State.commitStore
    split <;> rfl
  simp [State.commitOne, control, store]

theorem State.commitStage_rawCount (s : State) : s.commitStage.metrics.stallRawHazard = s.metrics.stallRawHazard :=
  State.commitStage_keeps (P := fun t => t.metrics.stallRawHazard = s.metrics.stallRawHazard)
    (fun t _ e _ ht => (t.commitOne_rawCount e).trans ht)
    (fun t _ e _ ht => by rw [State.squashAfter_metrics, State.commitOne_rawCount, ht]) (fun _ _ ht => ht) s rfl

theorem State.loadAccess_rawCount (s : State) (a : Word) (f : Option LsqEntry) :
    (s.loadAccess a f).2.2.metrics.stallRawHazard = s.metrics.stallRawHazard := by
  cases f with
  | some st => rfl
  | none =>
    rcases eq_or_ne (hitWay s.cfg.dcache s.dcache a.toNat) none with miss | hit
    · rw [State.loadAccess_miss miss]
      rfl
    · rw [State.loadAccess_hit hit]
      rfl

theorem State.memoryStage_rawCount (s : State) : s.memoryStage.metrics.stallRawHazard = s.metrics.stallRawHazard := by
  rw [State.memoryStage, State.countPort_metrics]
  unfold State.startLoad
  split
  · rfl
  · split
    · rfl
    · exact s.loadAccess_rawCount ..

theorem Decodes.rawCount {n : Nat} {s t : State} {taken : List FetchRec} (h : Decodes n s taken t) :
    t.metrics.stallRawHazard = s.metrics.stallRawHazard := by
  induction h with
  | full | empty => rfl
  | stall _ hs => cases hs <;> rfl
  | take _ _ _ ih => rw [ih, State.allocate_metrics]

theorem State.decodeStage_rawCount (s : State) : s.decodeStage.metrics.stallRawHazard = s.metrics.stallRawHazard := by
  by_cases hdl : s.dl = []
  · obtain ⟨taken, h⟩ := State.decodeStage_decodes hdl
    exact h.rawCount
  · rw [State.decodeStage, if_neg (by simpa using hdl)]

theorem Packet.rawCount {n : Nat} {s t : State} {new : List FetchRec} (h : Packet n s new t) :
    t.metrics.stallRawHazard = s.metrics.stallRawHazard := by
  induction h with
  | width | full | fault | miss => rfl
  | taken _ _ hit _ => rw [State.afterHit_metrics _ hit]
  | next _ _ hit _ _ ih => rw [ih, State.afterHit_metrics _ hit]

theorem State.fetchStage_rawCount (s : State) : s.fetchStage.metrics.stallRawHazard = s.metrics.stallRawHazard := by
  cases hstall : s.fetch.stall with
  | succ n =>
    rw [State.fetchStage_stalled hstall]
    dsimp only
    split <;> rfl
  | zero =>
    cases hblocked : s.fetch.blocked with
    | true => rw [State.fetchStage_blocked hstall hblocked]
    | false =>
      obtain ⟨new, h⟩ := fetchLoop_packet s.cfg.fetchWidth s
      rw [State.fetchStage_eq hstall hblocked, h.rawCount]

/-! ### The obligation -/

/-- Settles O47: the lowest key among the ready entries, the condition of the count, and the counter's frame. -/
theorem selectsOldestReady : Obligations.SelectsOldestReady := by
  refine ⟨fun rs => ⟨fun i h => ?_, oldestReady_eq_none_iff⟩, RsEntry.isReady_iff, fun s => ?_⟩
  · obtain ⟨e, he, holdest⟩ := oldestReady_oldest h
    exact ⟨e, he, holdest.valid, holdest.ready, holdest.le⟩
  · have hcount := s.executeStage_rawCount
    have hazard := State.RawHazard.eq_def s
    simp only [NoneReady, RsEntry.isReady_eq_false_iff] at hazard
    refine ⟨fun h => hcount.trans (State.selectStage_rawCount_of_hazard (hazard ▸ h)),
      fun h => hcount.trans (State.selectStage_rawCount_of_not_hazard (hazard ▸ h)), ?_⟩
    simp only [List.forall_mem_cons, List.not_mem_nil, false_implies, implies_true, and_true]
    exact ⟨s.commitStage_rawCount, s.memoryStage_rawCount, congrArg _ s.issueStage_metrics, s.decodeStage_rawCount,
      s.fetchStage_rawCount⟩

end Sys2Proof.Machine
end

section
/-!
SUPPORT. The load a queue holds that may start: what holds a load back, and the search of the queue from its head (R130,
R131, R135).
-/

namespace Sys2Proof.Machine

/-! ### What holds a load back -/

/-- A store does not overlap a load partly if the two are at the same address or their words do not meet (R131). -/
theorem partialOverlap_eq_false_iff (st : LsqEntry) (a : Word) :
    partialOverlap st a = false ↔
      st.addr = a ∨ st.addr.toNat + 4 ≤ a.toNat ∨ a.toNat + 4 ≤ st.addr.toNat := by
  by_cases haddr : st.addr = a
  · simp [partialOverlap, haddr]
  · simp only [partialOverlap, Bool.and_eq_false_iff, decide_eq_false_iff_not, bne_eq_false_iff_eq, haddr, or_false,
      false_or]
    omega

/-- Two words of which neither is misaligned are the same or do not meet. -/
theorem partialOverlap_of_aligned {st : LsqEntry} {a : Word} (hst : st.addr.toNat % 4 = 0) (ha : a.toNat % 4 = 0) :
    partialOverlap st a = false := by
  rw [partialOverlap_eq_false_iff, ← BitVec.toNat_inj]
  omega

theorem blocksLoad_eq_false_iff (a : Word) (e : LsqEntry) :
    blocksLoad a e = false ↔
      (e.kind = .store → e.addrOk = true) ∧ (e.kind = .store → e.fault = none → partialOverlap e a = false) := by
  cases hkind : e.kind <;> simp [blocksLoad, hkind]

/-- The model's test of a load against the entries older than it, the youngest first, is `MayStart` of those entries in the
order of the queue (R130, R131). -/
theorem eligible_reverse_iff_mayStart {pre : List LsqEntry} {l : LsqEntry} :
    eligible pre.reverse l = true ↔ MayStart pre l := by
  simp only [eligible_iff, LsqEntry.startable, Bool.and_eq_true, beq_iff_eq, List.mem_reverse, blocksLoad_eq_false_iff,
    partialOverlap_eq_false_iff]
  constructor
  · rintro ⟨⟨load, ready⟩, hpre⟩
    exact ⟨load, ready, fun st hst => (hpre st hst).1, fun st hst => (hpre st hst).2⟩
  · exact fun h => ⟨⟨h.load, h.ready⟩, fun st hst => ⟨h.resolved st hst, h.apart st hst⟩⟩

/-! ### The search of the queue -/

/-- The search ends at an eligible load or before it (R135). -/
theorem exists_oldestEligible_of_eligible {older : List LsqEntry} (pre : List LsqEntry) {x : LsqEntry}
    (post : List LsqEntry) (h : eligible (pre.reverse ++ older) x = true) :
    ∃ l older', oldestEligible older (pre ++ x :: post) = some (l, older') ∧
      older'.length ≤ pre.length + older.length := by
  induction pre generalizing older with
  | nil => exact ⟨x, older, if_pos h, Nat.le_add_left ..⟩
  | cons y ys ih =>
    by_cases hy : eligible older y = true
    · exact ⟨y, older, if_pos hy, Nat.le_add_left ..⟩
    · rw [List.reverse_cons, List.append_assoc, List.singleton_append] at h
      obtain ⟨l, older', hfound, hlen⟩ := ih h
      exact ⟨l, older', (if_neg hy).trans hfound, by simp only [List.length_cons] at hlen ⊢; omega⟩

/-- A load of the queue that may start is found, or an older one is. -/
theorem exists_oldestEligible_of_mayStart {pre : List LsqEntry} {x : LsqEntry} (post : List LsqEntry)
    (h : MayStart pre x) :
    ∃ l older, oldestEligible [] (pre ++ x :: post) = some (l, older) ∧ older.length ≤ pre.length :=
  exists_oldestEligible_of_eligible pre post (by rwa [List.append_nil, eligible_reverse_iff_mayStart])

/-- The load that is found may start, and the entries returned with it are those before it (R135). -/
theorem mayStart_of_oldestEligible {q older : List LsqEntry} {l : LsqEntry} (h : oldestEligible [] q = some (l, older)) :
    (∃ post, q = older.reverse ++ l :: post) ∧ MayStart older.reverse l := by
  obtain ⟨pre, post, hq, rfl, hl⟩ := exists_of_oldestEligible h
  rw [List.append_nil] at hl ⊢
  rw [List.reverse_reverse]
  exact ⟨⟨post, hq⟩, eligible_reverse_iff_mayStart.1 hl⟩

theorem oldestEligible_eq_none_iff {q : List LsqEntry} :
    oldestEligible [] q = none ↔ ∀ pre x post, q = pre ++ x :: post → ¬ MayStart pre x := by
  constructor
  · rintro hnone pre x post rfl hx
    obtain ⟨l, older, hfound, -⟩ := exists_oldestEligible_of_mayStart post hx
    cases hnone.symm.trans hfound
  · intro hno
    cases hfound : oldestEligible [] q with
    | none => rfl
    | some found =>
      obtain ⟨⟨post, hq⟩, hl⟩ := mayStart_of_oldestEligible hfound
      exact absurd hl (hno _ _ post hq)

/-- A free port that finds no load to start does nothing (R135). -/
theorem State.memoryStage_idle {s : State} (free : s.mport.busy = false) (h : oldestEligible [] s.lsq = none) :
    s.memoryStage = s := by
  have hbusy : ¬ s.mport.busy = true := by simp [free]
  have hstart : s.startLoad = s := by rw [State.startLoad, if_neg hbusy, h]
  rw [State.memoryStage, hstart, State.countPort, if_neg hbusy]

/-! ### The obligation -/

/-- Settles O45: the load found and its place, the loads older than it, the idle stage, and aligned words. -/
theorem unresolvedStoreHoldsLoads : Obligations.UnresolvedStoreHoldsLoads := by
  refine ⟨fun q l older h => ?_, fun q => oldestEligible_eq_none_iff,
    fun s free hno => State.memoryStage_idle free (oldestEligible_eq_none_iff.2 hno),
    fun st a => partialOverlap_of_aligned⟩
  obtain ⟨hq, hl⟩ := mayStart_of_oldestEligible h
  refine ⟨hq, hl, ?_⟩
  rintro pre x post rfl hx
  obtain ⟨l', older', hfound, hlen⟩ := exists_oldestEligible_of_mayStart post hx
  cases h.symm.trans hfound
  exact hlen

end Sys2Proof.Machine
end

section
/-!
SUPPORT. Address resolution: what it makes of the queue entry and the ROB entry of the access, and that every other entry is
as before (R128).
-/

namespace Sys2Proof.Machine

/-! ### The entries of the access -/

theorem LsqEntry.resolved_of_store {l : LsqEntry} (h : l.kind = .store) (ea data : Word) (fault : Option Cause) :
    l.resolved ea data fault = { l with addr := ea, addrOk := true, fault := fault, data := data } := by
  rw [LsqEntry.resolved, h]

theorem LsqEntry.resolved_of_load {l : LsqEntry} (h : l.kind = .load) (ea data : Word) (fault : Option Cause) :
    l.resolved ea data fault =
      { l with addr := ea, addrOk := true, fault := fault, lstate := if fault = none then .ready else .done } := by
  rw [LsqEntry.resolved, h]

/-- Resolution writes the address and its fault into the queue entry of either kind (R128). -/
theorem LsqEntry.resolved_fields (l : LsqEntry) (ea data : Word) (fault : Option Cause) :
    (l.resolved ea data fault).addr = ea ∧ (l.resolved ea data fault).addrOk = true ∧
      (l.resolved ea data fault).fault = fault ∧ (l.resolved ea data fault).seq = l.seq := by
  unfold LsqEntry.resolved
  split <;> exact ⟨rfl, rfl, rfl, rfl⟩

/-- A store's ROB entry is completed with its address and data, whether the access faults or not (R128). -/
theorem RobEntry.resolved_store (e : RobEntry) (ea data : Word) (fault : Option Cause) :
    (e.resolved .store ea data fault).stAddr = ea ∧ (e.resolved .store ea data fault).stValue = data ∧
      (e.resolved .store ea data fault).completed = true := by
  cases fault <;> exact ⟨rfl, rfl, rfl⟩

/-- The ROB entry of a faulting access is completed with the cause and the address (R128). -/
theorem RobEntry.resolved_fault (e : RobEntry) (kind : LsqKind) (ea data : Word) (c : Cause) :
    (e.resolved kind ea data (some c)).completed = true ∧ (e.resolved kind ea data (some c)).exception = some c ∧
      (e.resolved kind ea data (some c)).excAddr = ea := ⟨rfl, rfl, rfl⟩

/-- The exception of a sound access is as before (R128). -/
theorem RobEntry.resolved_sound (e : RobEntry) (kind : LsqKind) (ea data : Word) :
    (e.resolved kind ea data none).exception = e.exception ∧
      (e.resolved kind ea data none).excAddr = e.excAddr := by
  cases kind <;> exact ⟨rfl, rfl⟩

/-! ### The queue -/

/-- The entry a slot owns is found in the queue if no other has its ROB index. -/
theorem find?_eq_some_of_owner {pre post : List LsqEntry} {l : LsqEntry} {c : Nat} (howner : l.rob = c)
    (hpre : ∀ x, x ∈ pre → x.rob ≠ c) :
    (pre ++ l :: post).find? (fun x => x.rob == c) = some l := by
  have hnone : pre.find? (fun x => x.rob == c) = none := List.find?_eq_none.2 fun x hx => by simpa using hpre x hx
  rw [List.find?_append, hnone, List.find?_cons_of_pos (by simpa using howner), Option.none_or]

theorem resolveQueue_of_not_owner {q : List LsqEntry} {c : Nat} {ea data : Word} {fault : Option Cause}
    (h : ∀ x, x ∈ q → x.rob ≠ c) : resolveQueue c ea data fault q = q :=
  (List.map_congr_left fun x hx => if_neg (h x hx)).trans (List.map_id' q)

/-- Resolution writes the entry the slot owns and no other (R128). -/
theorem resolveQueue_of_owner {pre post : List LsqEntry} {l : LsqEntry} {c : Nat} (ea data : Word)
    (fault : Option Cause) (howner : l.rob = c) (hpre : ∀ x, x ∈ pre → x.rob ≠ c)
    (hpost : ∀ x, x ∈ post → x.rob ≠ c) :
    resolveQueue c ea data fault (pre ++ l :: post) = pre ++ l.resolved ea data fault :: post := by
  have hsplit : resolveQueue c ea data fault (pre ++ l :: post) =
      resolveQueue c ea data fault pre ++ (if l.rob = c then l.resolved ea data fault else l) ::
        resolveQueue c ea data fault post := List.map_append
  rw [hsplit, resolveQueue_of_not_owner hpre, resolveQueue_of_not_owner hpost, if_pos howner]

/-! ### The reorder buffer -/

/-- Resolution writes the ROB entry of the access and no other (R128). -/
theorem State.robAt_resolve {s : State} {u : FuUnit} {l : LsqEntry}
    (h : s.lsq.find? (fun x => x.rob == u.rob) = some l) (i : Nat) :
    (s.resolve u).robAt i =
      if i = u.rob ∧ i < s.rob.length then
        (s.robAt i).resolved l.kind (effectiveAddress u.a u.imm) u.b
          (addressFault s.cfg.memSize (effectiveAddress u.a u.imm))
      else s.robAt i := by
  rw [State.resolve, h]
  exact State.robAt_updateRob _ u.rob i _

/-! ### The obligation -/

/-- Settles O44: the queue entry by its kind, the ROB entry by the kind and the fault, and the frame. -/
theorem addressResolution : Obligations.AddressResolution := by
  intro s u pre post l hlsq howner hothers hlt ea fault t e f
  obtain ⟨hpre, hpost⟩ := List.forall_mem_append.1 hothers
  have hfind : s.lsq.find? (fun x => x.rob == u.rob) = some l := hlsq ▸ find?_eq_some_of_owner howner hpre
  have hea : effectiveAddress u.a u.imm = ea := effectiveAddress_eq u.a u.imm
  have hfault : addressFault s.cfg.memSize ea = fault := addressFault_eq s.cfg.memSize ea
  have hqueue : t.lsq = pre ++ l.resolved ea u.b fault :: post := by
    rw [(State.resolve_eq hfind).2, hea, hfault, hlsq, resolveQueue_of_owner ea u.b fault howner hpre hpost]
  have hentry : f = e.resolved l.kind ea u.b fault := by
    have hat := State.robAt_resolve hfind u.rob
    rwa [if_pos ⟨rfl, hlt⟩, hea, hfault] at hat
  have hframe : ∀ i, i ≠ u.rob → t.robAt i = s.robAt i := fun i hi =>
    (State.robAt_resolve hfind i).trans (if_neg fun h => hi h.1)
  obtain ⟨haddr, haddrOk, hflt, hseq⟩ := l.resolved_fields ea u.b fault
  refine ⟨⟨_, hqueue, haddr, haddrOk, hflt, l.resolved_kind .., hseq, l.resolved_rob .., fun hstore => ?_,
    fun hload => ?_⟩, fun hstore => ?_, fun c hc => ?_, fun hc => ?_, fun hc hload => ?_, hframe, s.resolve_rs u,
    s.resolve_cdbq u, s.resolve_mem u⟩
  · rw [LsqEntry.resolved_of_store hstore]
    exact ⟨rfl, rfl⟩
  · rw [LsqEntry.resolved_of_load hload]
    exact ⟨rfl, rfl⟩
  · rw [hentry, hstore]
    exact e.resolved_store ea u.b fault
  · rw [hentry, hc]
    exact e.resolved_fault l.kind ea u.b c
  · rw [hentry, hc]
    exact e.resolved_sound l.kind ea u.b
  · rw [hentry, hc, hload, RobEntry.resolved_load_none]

end Sys2Proof.Machine
end

section
/-!
SUPPORT. What committing the head changes, field by field (R143): the counters, which the store and the control part of a
commit share, and with them the obligation; every other field has its lemma above.
-/

namespace Sys2Proof.Machine

/-- A committed store makes one write access to the D-cache, which counts its hit; no other entry moves a counter there
(R65, R143). -/
theorem State.commitStore_metrics (s : State) (e : RobEntry) :
    (s.commitStore e).metrics =
      { s.metrics with
        dcacheAccesses := s.metrics.dcacheAccesses + (if e.isStore then 1 else 0)
        dcacheHits := s.metrics.dcacheHits +
          (if e.isStore = true ∧ hitWay s.cfg.dcache s.dcache e.stAddr.toNat ≠ none then 1 else 0) } := by
  cases hstore : e.isStore with
  | false => simp [State.commitStore, hstore]
  | true =>
    rw [State.commitStore, if_pos hstore, State.dcacheAccess_metrics]
    simp [Option.isSome_iff_ne_none]

/-- A committed control instruction counts its prediction, and a wrong one as such (R143, D48). -/
theorem State.commitControl_metrics (s : State) (e : RobEntry) :
    (s.commitControl e).metrics =
      { s.metrics with
        branchPredictions := s.metrics.branchPredictions + (if e.isCtl then 1 else 0)
        branchMispredictions := s.metrics.branchMispredictions + (if e.isCtl && e.mispredicted then 1 else 0) } := by
  cases hctl : e.isCtl <;> simp [State.commitControl, hctl]

/-- Every counter after a commit (R143). -/
theorem State.commitOne_metrics (s : State) (e : RobEntry) :
    (s.commitOne e).metrics =
      { s.metrics with
        instructionsCommitted := s.metrics.instructionsCommitted + 1
        branchPredictions := s.metrics.branchPredictions + (if e.isCtl then 1 else 0)
        branchMispredictions := s.metrics.branchMispredictions + (if e.isCtl && e.mispredicted then 1 else 0)
        dcacheAccesses := s.metrics.dcacheAccesses + (if e.isStore then 1 else 0)
        dcacheHits := s.metrics.dcacheHits +
          (if e.isStore = true ∧ hitWay s.cfg.dcache s.dcache e.stAddr.toNat ≠ none then 1 else 0) } := by
  rw [State.commitOne, State.commitFree_metrics, State.commitControl_metrics, State.commitLsq_metrics,
    State.commitStore_metrics, State.commitRegister_metrics, State.commitRegister_cfg, State.commitRegister_dcache]

/-- The rename-map entry of a register after a commit (R143). -/
theorem State.rename_commitOne (s : State) (e : RobEntry) {r : Reg} (hr : r ≠ 0) :
    ((s.commitOne e).regEntry r).tag = (s.regEntry r).tag ∧
      ((s.commitOne e).regEntry r).ready =
        ((s.regEntry r).ready || (e.dest == some r && (s.regEntry r).tag == s.robHead)) := by
  rw [State.regEntry_commitOne, State.regEntry_commitRegister]
  by_cases hd : e.dest = some r
  · rw [if_pos ⟨hd, hr⟩, hd]
    simp
  · rw [if_neg fun h => hd h.1]
    simp [hd]

/-- Settles O39: the rules of a commit, one for each field. -/
theorem commitOneEffects : Obligations.CommitOneEffects := by
  intro s e hlt
  have hcounts := s.commitOne_metrics e
  refine ⟨s.reg_commitOne e, fun r hr => s.rename_commitOne e hr, s.commitOne_mem e, s.commitOne_lsq e,
    s.commitOne_archPc e, congrArg _ hcounts, congrArg _ hcounts, congrArg _ hcounts, congrArg _ hcounts,
    s.commitOne_dcache e, congrArg _ hcounts, fun i hi => ?_, ?_, s.commitOne_robHead e, s.commitOne_robCount e⟩
  · rw [State.robAt_commitOne, if_neg fun h => hi h.1]
  · rw [State.robAt_commitOne, if_pos ⟨rfl, hlt⟩]

end Sys2Proof.Machine
end

section
/-!
SUPPORT. How the commits of a tick end: what commit does at each kind of head (R140), and the state a tick leaves seen from
the one its last commit leaves (R140 to R149).
-/

namespace Sys2Proof.Machine

/-! ### The head -/

theorem State.headAction_of_empty {s : State} (w : List Reg) (h : s.robCount = 0) : s.headAction w = .wait := if_pos h

theorem State.headAction_of_pending {s : State} (w : List Reg) (h : s.headEntry.completed = false) :
    s.headAction w = .wait := by
  simp only [State.headAction, h, if_true, ite_self]

/-- A second write of a register waits (R142). -/
theorem State.headAction_of_written {s : State} {w : List Reg} (hexc : s.headEntry.exception = none)
    (hw : s.headEntry.writtenTwice w = true) : s.headAction w = .wait := by
  simp only [State.headAction, hexc, hw, if_true, ite_self]

/-- A completed head that carries an exception surfaces it, whatever this tick has written (R145). -/
theorem State.headAction_of_exception {s : State} (w : List Reg) {c : Cause} (hcount : s.robCount ≠ 0)
    (hdone : s.headEntry.completed = true) (hexc : s.headEntry.exception = some c) :
    s.headAction w = .surface s.headEntry c s.headEntry.excAddr := by
  simp only [State.headAction, if_neg hcount, hdone, hexc, Bool.true_eq_false, if_false]

/-- A `syscall` without the exit request at the head surfaces `UnsupportedSyscall` (R180). -/
theorem State.headAction_of_syscall {s : State} {w : List Reg} (hcount : s.robCount ≠ 0)
    (hdone : s.headEntry.completed = true) (hexc : s.headEntry.exception = none)
    (hw : s.headEntry.writtenTwice w = false) (hop : s.headEntry.op = some .syscall) (hexit : s.reg 2 ≠ 10) :
    s.headAction w = .surface s.headEntry .unsupportedSyscall 0 := by
  have hnot := (exitRequested_eq_false_iff _).2 hexit
  simp only [State.headAction, if_neg hcount, hdone, hexc, hw, hop, hnot, Bool.true_eq_false, Bool.false_eq_true,
    and_self, if_false, if_true]

/-- Commit surfaces a fault only of a completed head: the exception it carries, or that of a `syscall` without the exit
request (R140). -/
theorem State.head_of_surface {s : State} {w : List Reg} {e : RobEntry} {c : Cause} {a : Word}
    (h : s.headAction w = .surface e c a) :
    e = s.headEntry ∧ s.robCount ≠ 0 ∧ s.headEntry.completed = true ∧
      ((s.headEntry.exception = some c ∧ a = s.headEntry.excAddr) ∨
        (s.headEntry.exception = none ∧ s.headEntry.op = some .syscall ∧ s.reg 2 ≠ 10 ∧
          c = .unsupportedSyscall ∧ a = 0)) := by
  have hcount : s.robCount ≠ 0 := fun hempty => by
    rw [State.headAction_of_empty w hempty] at h
    cases h
  have hdone : s.headEntry.completed = true := (Bool.not_eq_false _).mp fun hpending => by
    rw [State.headAction_of_pending w hpending] at h
    cases h
  cases hexc : s.headEntry.exception with
  | some c' =>
    rw [State.headAction_of_exception w hcount hdone hexc] at h
    cases h
    exact ⟨rfl, hcount, hdone, .inl ⟨rfl, rfl⟩⟩
  | none =>
    obtain ⟨rfl, ⟨hsome, -⟩ | ⟨hop, hexit, rfl, rfl⟩⟩ := headAction_surface h
    · cases hexc.symm.trans hsome
    · exact ⟨rfl, hcount, hdone, .inr ⟨rfl, hop, (exitRequested_eq_false_iff _).1 hexit, rfl, rfl⟩⟩

/-- A surfaced fault at the head of a tick is all the commit stage does (R145). -/
theorem State.commitStage_of_surface {s : State} (hwidth : 0 < s.cfg.commitWidth) {e : RobEntry} {c : Cause} {a : Word}
    (hact : s.headAction [] = .surface e c a) : s.commitStage = s.surface c e.pc e.seq a := by
  obtain ⟨n, hn⟩ := Nat.exists_eq_add_one.2 hwidth
  rw [State.commitStage, hn, commitLoop, hact]

/-! ### The registers a tick has written -/

/-- The registers written once the entries `l` have committed in a tick that had written `w` (R142). -/
def writtenBy (l : List RobEntry) (w : List Reg) : List Reg := (l.filterMap (·.dest)).reverse ++ w

theorem writtenBy_cons (e : RobEntry) (l : List RobEntry) (w : List Reg) :
    writtenBy (e :: l) w = writtenBy l (e.addWritten w) := by
  unfold writtenBy RobEntry.addWritten
  cases hd : e.dest <;> simp [hd]

theorem mem_writtenBy_nil (l : List RobEntry) (d : Reg) : d ∈ writtenBy l [] ↔ d ∈ l.filterMap (·.dest) := by
  simp [writtenBy]

theorem RobEntry.writtenTwice_eq_false_iff (e : RobEntry) (w : List Reg) :
    e.writtenTwice w = false ↔ ∀ d, e.dest = some d → d ∉ w := by
  rw [← Bool.not_eq_true, RobEntry.writtenTwice_iff, not_exists]
  exact forall_congr' fun _ => not_and

/-- Committing an entry whose register is not yet written keeps the written registers different (R142). -/
theorem RobEntry.nodup_addWritten {e : RobEntry} {w : List Reg} (hw : w.Nodup) (hfirst : e.writtenTwice w = false) :
    (e.addWritten w).Nodup := by
  have hnew := (e.writtenTwice_eq_false_iff w).1 hfirst
  unfold RobEntry.addWritten
  cases hd : e.dest with
  | none => exact hw
  | some d => exact List.nodup_cons.2 ⟨hnew d hd, hw⟩

/-- The registers a tick has written stay pairwise different (R142). -/
theorem Commits.nodup_writtenBy {n : Nat} {w : List Reg} {s t : State} {l : List RobEntry} (h : Commits n w s l t)
    (hw : w.Nodup) : (writtenBy l w).Nodup := by
  induction h with
  | full | wait | surface => exact hw
  | halt hact | squash hact =>
    obtain ⟨-, -, -, -, hfirst, -⟩ := headAction_retire hact
    rw [writtenBy_cons]
    exact RobEntry.nodup_addWritten hw hfirst
  | retire hact _ _ _ ih =>
    obtain ⟨-, -, -, -, hfirst, -⟩ := headAction_retire hact
    rw [writtenBy_cons]
    exact ih (RobEntry.nodup_addWritten hw hfirst)

/-- Settles O37: an entry is committed only if its register is not yet written, and waits otherwise. -/
theorem noDoubleWrite : Obligations.NoDoubleWrite := by
  refine ⟨fun s => ?_, fun s written d hexc hdest hmem n => ?_⟩
  · have h := s.commitStage_commits.nodup_writtenBy List.nodup_nil
    rwa [writtenBy, List.append_nil, List.nodup_reverse] at h
  · cases n with
    | zero => rfl
    | succ n =>
      have htwice : s.headEntry.writtenTwice written = true := (RobEntry.writtenTwice_iff ..).2 ⟨d, hdest, hmem⟩
      rw [commitLoop, State.headAction_of_written hexc htwice]

/-! ### The end of a tick's commits -/

/-- The commit loop goes on behind the entry: it ends no run and was predicted right (R140). -/
def RobEntry.GoesOn (e : RobEntry) : Prop := e.halts = false ∧ e.mispredicted = false

/-- How the commits of a tick end: they retire `l`, at most `n` entries, and leave `u`, with the registers `w` written;
the commit stage leaves `t` (R140). Every entry of `l` but the last goes on. -/
inductive CommitEnds (n : Nat) (w : List Reg) (u : State) (l : List RobEntry) : State → Prop where
  | full (hlen : l.length = n) (goes : ∀ x, x ∈ l → x.GoesOn) : CommitEnds n w u l u
  | wait (hact : u.headAction w = .wait) (goes : ∀ x, x ∈ l → x.GoesOn) : CommitEnds n w u l u
  | surface {e : RobEntry} {c : Cause} {a : Word} (hact : u.headAction w = .surface e c a)
    (goes : ∀ x, x ∈ l → x.GoesOn) : CommitEnds n w u l (u.surface c e.pc e.seq a)
  | halt {pre : List RobEntry} {e : RobEntry} (hl : l = pre ++ [e]) (goes : ∀ x, x ∈ pre → x.GoesOn)
    (ends : e.halts = true) : CommitEnds n w u l u.halt
  | squash {pre : List RobEntry} {e : RobEntry} (hl : l = pre ++ [e]) (goes : ∀ x, x ∈ pre → x.GoesOn)
    (runs : e.halts = false) (wrong : e.mispredicted = true) : CommitEnds n w u l (u.squashAfter e)

/-- One more entry committed before the others ends no tick in another way. -/
theorem CommitEnds.cons {n : Nat} {w : List Reg} {u t : State} {l : List RobEntry} {e : RobEntry} (he : e.GoesOn)
    (h : CommitEnds n w u l t) : CommitEnds (n + 1) w u (e :: l) t := by
  cases h with
  | full hlen goes => exact .full (congrArg (· + 1) hlen) (List.forall_mem_cons.2 ⟨he, goes⟩)
  | wait hact goes => exact .wait hact (List.forall_mem_cons.2 ⟨he, goes⟩)
  | surface hact goes => exact .surface hact (List.forall_mem_cons.2 ⟨he, goes⟩)
  | halt hl goes ends => exact .halt (congrArg (e :: ·) hl) (List.forall_mem_cons.2 ⟨he, goes⟩) ends
  | squash hl goes runs wrong =>
    exact .squash (congrArg (e :: ·) hl) (List.forall_mem_cons.2 ⟨he, goes⟩) runs wrong

theorem Commits.ends {n : Nat} {w : List Reg} {s t : State} {l : List RobEntry} (h : Commits n w s l t) :
    CommitEnds n (writtenBy l w) (s.commitAll l) l t := by
  have none_before : ∀ x, x ∈ ([] : List RobEntry) → x.GoesOn := List.forall_mem_nil _
  induction h with
  | full => exact .full rfl none_before
  | wait hact => exact .wait hact none_before
  | surface hact => exact .surface hact none_before
  | halt _ ends => exact .halt (List.nil_append _).symm none_before ends
  | squash _ runs wrong => exact .squash (List.nil_append _).symm none_before runs wrong
  | retire _ runs right _ ih =>
    rw [writtenBy_cons]
    exact ih.cons ⟨runs, right⟩

theorem State.commitStage_ends (s : State) :
    CommitEnds s.cfg.commitWidth (writtenBy s.commitStageLog []) (s.commitAll s.commitStageLog) s.commitStageLog
      s.commitStage :=
  s.commitStage_commits.ends

namespace CommitEnds

variable {n : Nat} {w : List Reg} {u t : State} {l : List RobEntry}

/-- Room is left, the last entry goes on, and the head's fault is to be surfaced: that is all that is left to do. -/
theorem eq_surface (h : CommitEnds n w u l t) (hlen : l.length < n)
    (hlast : ∀ x, l.getLast? = some x → x.GoesOn) {e : RobEntry} {c : Cause} {a : Word}
    (hact : u.headAction w = .surface e c a) : t = u.surface c e.pc e.seq a := by
  cases h with
  | full hfull => omega
  | wait hwait => cases hwait.symm.trans hact
  | surface hsurface =>
    cases hsurface.symm.trans hact
    rfl
  | halt hl _ ends =>
    have hgoes := (hlast _ (hl ▸ List.getLast?_concat)).1
    cases ends.symm.trans hgoes
  | squash hl _ _ wrong =>
    have hgoes := (hlast _ (hl ▸ List.getLast?_concat)).2
    cases wrong.symm.trans hgoes

/-- Behind an entry that does not go on there is none. -/
theorem goesOn (h : CommitEnds n w u l t) {pre post : List RobEntry} {e : RobEntry} (hl : l = pre ++ e :: post)
    (hpost : post ≠ []) : e.GoesOn := by
  have mem : e ∈ l := hl ▸ List.mem_append_right pre List.mem_cons_self
  have init : ∀ {pre' e'}, l = pre' ++ [e'] → e ∈ pre' := fun {pre' e'} hl' => by
    have hdrop := congrArg List.dropLast (hl'.symm.trans hl)
    rw [List.dropLast_concat, List.dropLast_append_cons, List.dropLast_cons_of_ne_nil hpost] at hdrop
    exact hdrop ▸ List.mem_append_right pre List.mem_cons_self
  cases h with
  | full _ goes | wait _ goes | surface _ goes => exact goes e mem
  | halt hl' goes | squash hl' goes => exact goes e (init hl')

/-- The state left behind a last entry that ends the run (R146). -/
theorem eq_halt (h : CommitEnds n w u l t) {pre : List RobEntry} {e : RobEntry} (hl : l = pre ++ [e])
    (ends : e.halts = true) : t = u.halt := by
  have last : e ∈ l := hl ▸ List.mem_append_right pre List.mem_cons_self
  cases h with
  | full _ goes | wait _ goes | surface _ goes => cases ends.symm.trans (goes e last).1
  | halt => rfl
  | squash hl' _ runs =>
    obtain rfl := List.singleton_inj.1 (List.append_inj_right' (hl'.symm.trans hl) rfl)
    cases ends.symm.trans runs

/-- The state left behind a last entry that was mispredicted and ends no run (R147, R148). -/
theorem eq_squash (h : CommitEnds n w u l t) {pre : List RobEntry} {e : RobEntry} (hl : l = pre ++ [e])
    (runs : e.halts = false) (wrong : e.mispredicted = true) : t = u.squashAfter e := by
  have last : e ∈ l := hl ▸ List.mem_append_right pre List.mem_cons_self
  cases h with
  | full _ goes | wait _ goes | surface _ goes => cases wrong.symm.trans (goes e last).2
  | halt hl' _ ends =>
    obtain rfl := List.singleton_inj.1 (List.append_inj_right' (hl'.symm.trans hl) rfl)
    cases ends.symm.trans runs
  | squash hl' =>
    obtain rfl := List.singleton_inj.1 (List.append_inj_right' (hl'.symm.trans hl) rfl)
    rfl

/-- A running run ends faulted in no way but by a surfaced fault (R145). -/
theorem surface_of_faulted (h : CommitEnds n w u l t) (hrun : u.outcome = .running) {c : Cause} {pc : Word} {q : Nat}
    {a : Word} (hfault : t.outcome = .faulted c pc q a) :
    ∃ e, u.headAction w = .surface e c a ∧ pc = e.pc ∧ q = e.seq := by
  cases h with
  | full | wait | squash => cases hrun.symm.trans hfault
  | surface hact =>
    cases hfault
    exact ⟨_, hact, rfl, rfl⟩
  | halt => cases hfault

/-- A running run ends halted in no way but by a last entry that ends it (R146). -/
theorem halts_of_halted (h : CommitEnds n w u l t) (hrun : u.outcome = .running) (hhalted : t.outcome = .halted) :
    ∃ pre e, l = pre ++ [e] ∧ e.halts = true := by
  cases h with
  | full | wait | squash => cases hrun.symm.trans hhalted
  | surface => cases hhalted
  | halt hl _ ends => exact ⟨_, _, hl, ends⟩

end CommitEnds

theorem State.commitAll_outcome (s : State) (l : List RobEntry) : (s.commitAll l).outcome = s.outcome := by
  induction l generalizing s with
  | nil => rfl
  | cons e l ih => rw [State.commitAll_cons, ih, State.commitOne_outcome]

/-! ### Faults -/

/-- Settles O40: a fault at the head is surfaced where the commits before it stop, and the run ends faulted nowhere
else. -/
theorem faultAtHeadIsSurfaced : Obligations.FaultAtHeadIsSurfaced := by
  refine ⟨fun s => ⟨fun hlen hcount hdone hlast => ⟨fun c hexc => ?_, fun hexc hop hexit hdest => ?_⟩,
    fun hrun c pc q a hfault => ?_⟩, fun s hwidth hcount hdone => ⟨fun c hexc => ?_, fun hexc hop hexit => ?_⟩⟩
  · exact s.commitStage_ends.eq_surface hlen hlast (State.headAction_of_exception _ hcount hdone hexc)
  · have hfirst := (RobEntry.writtenTwice_eq_false_iff _ (writtenBy s.commitStageLog [])).2 fun d hd hmem =>
      hdest d hd ((mem_writtenBy_nil _ d).1 hmem)
    exact s.commitStage_ends.eq_surface hlen hlast (State.headAction_of_syscall hcount hdone hexc hfirst hop hexit)
  · obtain ⟨e, hact, rfl, rfl⟩ := s.commitStage_ends.surface_of_faulted ((s.commitAll_outcome _).trans hrun) hfault
    obtain ⟨rfl, hcount, hdone, hcause⟩ := State.head_of_surface hact
    exact ⟨hcount, hdone, rfl, rfl, hcause⟩
  · exact State.commitStage_of_surface hwidth (State.headAction_of_exception [] hcount hdone hexc)
  · have hfirst := (s.headEntry.writtenTwice_eq_false_iff []).2 fun _ _ => List.not_mem_nil
    exact State.commitStage_of_surface hwidth (State.headAction_of_syscall hcount hdone hexc hfirst hop hexit)

/-! ### Halts -/

theorem RobEntry.halts_iff (e : RobEntry) : e.halts = true ↔ e.op = some .halt ∨ e.op = some .syscall := by
  simp [RobEntry.halts]

/-- Settles O41: the run halts exactly behind a last entry that ends it, and no entry stands behind such a one. -/
theorem haltEndsCommit : Obligations.HaltEndsCommit := by
  refine ⟨RobEntry.halts_iff, fun s hrun => ⟨⟨fun hhalted => ?_, ?_⟩, fun pre e post hlog hpost => ?_⟩⟩
  · exact s.commitStage_ends.halts_of_halted ((s.commitAll_outcome _).trans hrun) hhalted
  · rintro ⟨pre, e, hlog, ends⟩
    exact congrArg State.outcome (s.commitStage_ends.eq_halt hlog ends)
  · exact s.commitStage_ends.goesOn hlog hpost

/-! ### Mispredictions -/

theorem RobEntry.mispredicted_iff (e : RobEntry) :
    e.mispredicted = true ↔
      e.fetchedNextPc ≠ e.actualNextPc ∨ (e.isCtl = true ∧ e.predTaken ≠ e.actualTaken) := by
  simp [RobEntry.mispredicted]

/-- Every structure a squash empties (R148, R149). -/
structure Squashed (t : State) : Prop where
  robCount : t.robCount = 0
  robTail : t.robTail = t.robHead
  rob : ∀ y, y ∈ t.rob → y.valid = false
  rs : ∀ (k : FuClass) (x : RsEntry), x ∈ t.rs.get k → x.valid = false
  fu : ∀ (k : FuClass) (u : FuUnit), u ∈ t.fu.get k → u.busy = false
  cdbq : t.cdbq = []
  lsq : t.lsq = []
  mport : t.mport.busy = false
  dl : t.dl = []
  fb : t.fb = []
  ready : ∀ r, (t.regEntry r).ready = true

theorem State.squashed_squashAfter (s : State) (e : RobEntry) : Squashed (s.squashAfter e) where
  robCount := rfl
  robTail := rfl
  rob y hy := by
    obtain ⟨x, -, rfl⟩ := List.mem_map.1 hy
    rfl
  rs k x hx := by
    rw [State.squashAfter_rs, PerClass.get_map] at hx
    obtain ⟨y, -, rfl⟩ := List.mem_map.1 hx
    rfl
  fu k u hu := by
    rw [State.squashAfter_fu, PerClass.get_map] at hu
    obtain ⟨y, -, rfl⟩ := List.mem_map.1 hu
    rfl
  cdbq := rfl
  lsq := rfl
  mport := rfl
  dl := rfl
  fb := rfl
  ready r := by rw [State.regEntry_squashAfter]

/-- With gshare the repaired history is the snapshot of the entry, with its outcome if it is a conditional branch (R112). -/
theorem historyRepair_ghr_of_gshare {c : Config} (p : Predictor) {e : RobEntry} {op : Opcode} (hop : e.op = some op)
    (htype : c.bpType = .gshare) :
    (historyRepair c p e).ghr =
      if isConditional op = true then ((e.ghrSnap <<< 1) ||| e.actualTaken.toNat) % 2 ^ c.bpHistory
      else e.ghrSnap := by
  rw [historyRepair_ghr, if_pos htype, shiftHistory_eq, hop, opIs]

/-- Commits train the predictor and leave its history alone (R111). -/
theorem State.commitAll_ghr (s : State) (l : List RobEntry) : (s.commitAll l).pred.ghr = s.pred.ghr := by
  induction l generalizing s with
  | nil => rfl
  | cons e l ih =>
    rw [State.commitAll_cons, ih, State.commitOne_pred]
    split
    · exact predictorUpdate_ghr ..
    · rfl

theorem State.commitAll_cfg (s : State) (l : List RobEntry) : (s.commitAll l).cfg = s.cfg := by
  induction l generalizing s with
  | nil => rfl
  | cons e l ih => rw [State.commitAll_cons, ih, State.commitOne_cfg]

/-- `arch_pc` is where the last entry committed goes on (R143). -/
theorem State.commitAll_concat_archPc (s : State) (pre : List RobEntry) (e : RobEntry) :
    (s.commitAll (pre ++ [e])).archPc = e.actualNextPc := by
  rw [State.commitAll, List.foldl_append]
  rfl

/-- Settles O42: the criterion, and the squash behind the last entry committed. -/
theorem mispredictionSquashes : Obligations.MispredictionSquashes := by
  refine ⟨RobEntry.mispredicted_iff, fun s pre e hlog wrong runs => ?_⟩
  intro t
  have ht : t = (s.commitAll s.commitStageLog).squashAfter e := s.commitStage_ends.eq_squash hlog runs wrong
  have hcfg := s.commitAll_cfg s.commitStageLog
  have hghr := s.commitAll_ghr s.commitStageLog
  have hpc : (s.commitAll s.commitStageLog).archPc = e.actualNextPc := by rw [hlog, State.commitAll_concat_archPc]
  generalize s.commitAll s.commitStageLog = u at ht hcfg hghr hpc
  obtain ⟨hcount, htail, hrob, hrs, hfu, hcdbq, hlsq, hmport, hdl, hfb, hready⟩ := u.squashed_squashAfter e
  rw [ht, ← hcfg]
  refine ⟨hcount, htail, hrob, hrs, hfu, hcdbq, hlsq, hmport, hdl, hfb, hready, rfl, rfl, rfl, hpc,
    fun htype op hop => historyRepair_ghr_of_gshare u.pred hop htype, fun htype => ?_⟩
  rw [State.squashAfter_pred, historyRepair_ghr, if_neg htype, hghr]

end Sys2Proof.Machine
end

section
/-!
SUPPORT. Integer arithmetic, logic and constants: the result each instruction finishes with, in the operations of its words,
and the state a sequential step of it leaves (R98, R151 to R164).
-/

namespace Sys2Proof.Machine

/-! ### Shifts, comparison and product -/

/-- The low word of the unsigned product is that of the signed one (R156). -/
theorem ofNat_mul_toNat (a b : Word) : BitVec.ofNat 32 (a.toNat * b.toNat) = a * b := by
  rw [BitVec.ofNat_mul, BitVec.ofNat_toNat, BitVec.ofNat_toNat, BitVec.setWidth_eq, BitVec.setWidth_eq]

/-- Multiplying by `2^n` and keeping the low word is the left shift (R160). -/
theorem ofNat_toNat_mul_two_pow (a : Word) (n : Nat) : BitVec.ofNat 32 (a.toNat * 2 ^ n) = a <<< n := by
  apply BitVec.eq_of_toNat_eq
  rw [BitVec.toNat_ofNat, BitVec.toNat_shiftLeft, Nat.shiftLeft_eq]

/-- Dividing by `2^n` is the right shift that fills with zeros (R161). -/
theorem ofNat_toNat_div_two_pow (a : Word) (n : Nat) : BitVec.ofNat 32 (a.toNat / 2 ^ n) = a >>> n := by
  apply BitVec.eq_of_toNat_eq
  rw [BitVec.toNat_ofNat, BitVec.toNat_ushiftRight, Nat.shiftRight_eq_div_pow]
  exact Nat.mod_eq_of_lt ((Nat.div_le_self ..).trans_lt a.isLt)

theorem condLt_eq_slt (a b : Word) : condLt a b = a.slt b := BitVec.slt_eq_decide.symm

/-! ### The result each instruction finishes with -/

section

variable (s : State) (rd rs1 rs2 : Reg) (imm : Word)

theorem exec_add : exec (.add rd rs1 rs2) s =
    s.finishSequential rd (checkedResult s.cfg.overflowTraps ((s.reg rs1).toInt + (s.reg rs2).toInt) s.archPc) := rfl

theorem exec_addi : exec (.addi rd rs1 imm) s =
    s.finishSequential rd (checkedResult s.cfg.overflowTraps ((s.reg rs1).toInt + imm.toInt) s.archPc) := rfl

theorem exec_sub : exec (.sub rd rs1 rs2) s =
    s.finishSequential rd (checkedResult s.cfg.overflowTraps ((s.reg rs1).toInt - (s.reg rs2).toInt) s.archPc) := rfl

theorem exec_mul : exec (.mul rd rs1 rs2) s =
    s.finishSequential rd (valueResult (s.reg rs1 * s.reg rs2) s.archPc) := by
  rw [← ofInt_mul]
  rfl

theorem exec_and : exec (.and rd rs1 rs2) s =
    s.finishSequential rd (valueResult (s.reg rs1 &&& s.reg rs2) s.archPc) := rfl

theorem exec_or : exec (.or rd rs1 rs2) s =
    s.finishSequential rd (valueResult (s.reg rs1 ||| s.reg rs2) s.archPc) := rfl

theorem exec_xor : exec (.xor rd rs1 rs2) s =
    s.finishSequential rd (valueResult (s.reg rs1 ^^^ s.reg rs2) s.archPc) := rfl

theorem exec_slt : exec (.slt rd rs1 rs2) s =
    s.finishSequential rd (valueResult (if (s.reg rs1).slt (s.reg rs2) then 1 else 0) s.archPc) := by
  rw [← condLt_eq_slt]
  rfl

theorem exec_sll : exec (.sll rd rs1 imm) s =
    s.finishSequential rd (valueResult (s.reg rs1 <<< (imm.toNat % 32)) s.archPc) := by
  rw [← shiftAmount_eq, ← ofNat_toNat_mul_two_pow]
  rfl

theorem exec_srl : exec (.srl rd rs1 imm) s =
    s.finishSequential rd (valueResult (s.reg rs1 >>> (imm.toNat % 32)) s.archPc) := by
  rw [← shiftAmount_eq, ← ofNat_toNat_div_two_pow]
  rfl

theorem exec_li : exec (.li rd imm) s = s.finishSequential rd (valueResult imm s.archPc) := rfl

theorem exec_la : exec (.la rd imm) s = s.finishSequential rd (valueResult imm s.archPc) := rfl

end

/-! ### How such an instruction ends -/

/-- An instruction that finishes with a value completes, and writes that value (R98, R118). -/
theorem completes_of_valueResult {i : Instr} {s : State} {rd : Reg} {v : Word}
    (hexec : exec i s = s.finishSequential rd (valueResult v s.archPc)) :
    ∃ t, exec i s = .next t ∧ RegisterStep s t rd v (s.archPc + 4) := by
  rw [hexec, State.finishSequential_valueResult, nextSequential_eq]
  exact ⟨_, rfl, registerStep_retire ..⟩

/-- An add or subtract completes if overflow does not trap or its exact result fits (R152). -/
theorem completes_of_checkedResult {i : Instr} {s : State} {rd : Reg} {p : Int}
    (hexec : exec i s = s.finishSequential rd (checkedResult s.cfg.overflowTraps p s.archPc))
    (hfits : s.cfg.overflowTraps = false ∨ (-2 ^ 31 ≤ p ∧ p ≤ 2 ^ 31 - 1)) :
    ∃ t, exec i s = .next t ∧ RegisterStep s t rd (BitVec.ofInt 32 p) (s.archPc + 4) := by
  have hno : ¬ (s.cfg.overflowTraps = true ∧ (p < -2 ^ 31 ∨ 2 ^ 31 - 1 < p)) := by
    rintro ⟨htraps, hout⟩
    rcases hfits with hwraps | hin
    · simp [hwraps] at htraps
    · omega
  rw [checkedResult_eq, if_neg hno] at hexec
  exact completes_of_valueResult hexec

/-- An add or subtract raises if overflow traps and its exact result does not fit, whatever its destination (R152). -/
theorem raises_of_checkedResult {i : Instr} {s : State} {rd : Reg} {p : Int}
    (hexec : exec i s = s.finishSequential rd (checkedResult s.cfg.overflowTraps p s.archPc))
    (htraps : s.cfg.overflowTraps = true) (hout : p < -2 ^ 31 ∨ 2 ^ 31 - 1 < p) :
    ∃ t, exec i s = .next t ∧ FaultStep s t .arithmeticOverflow 0 := by
  rw [checkedResult_eq, if_pos ⟨htraps, hout⟩, State.finishSequential_raisedResult] at hexec
  exact ⟨_, hexec, faultStep_raise ..⟩

/-! ### The obligations -/

/-- Settles O9: the exact result, narrowed, is the wrapping sum or difference. -/
theorem addAddiSubComplete : Obligations.AddAddiSubComplete := by
  intro s rd rs1 rs2 imm
  refine ⟨fun h => ?_, fun h => ?_, fun h => ?_⟩
  · rw [← ofInt_add]
    exact completes_of_checkedResult (exec_add ..) h
  · rw [← ofInt_add]
    exact completes_of_checkedResult (exec_addi ..) h
  · rw [← ofInt_sub]
    exact completes_of_checkedResult (exec_sub ..) h

/-- Settles O10: the three raise where their exact result does not fit. -/
theorem addAddiSubOverflow : Obligations.AddAddiSubOverflow :=
  fun _ _ _ _ _ htraps =>
    ⟨raises_of_checkedResult (exec_add ..) htraps, raises_of_checkedResult (exec_addi ..) htraps,
      raises_of_checkedResult (exec_sub ..) htraps⟩

/-- Settles O11: each finishes with a value, and the low words of the signed and the unsigned product are one. -/
theorem mulLogicSltComplete : Obligations.MulLogicSltComplete := by
  intro s rd rs1 rs2
  refine ⟨?_, completes_of_valueResult (exec_and ..), completes_of_valueResult (exec_or ..),
    completes_of_valueResult (exec_xor ..), completes_of_valueResult (exec_slt ..)⟩
  rw [ofInt_mul, ofNat_mul_toNat]
  obtain ⟨t, hexec, hstep⟩ := completes_of_valueResult (exec_mul s rd rs1 rs2)
  exact ⟨t, hexec, hstep, hstep⟩

/-- Settles O12: each finishes with a value, the shifts by the low five bits of the immediate. -/
theorem shiftsAndConstantsComplete : Obligations.ShiftsAndConstantsComplete :=
  fun _ _ _ _ =>
    ⟨completes_of_valueResult (exec_sll ..), completes_of_valueResult (exec_srl ..),
      completes_of_valueResult (exec_li ..), completes_of_valueResult (exec_la ..)⟩

end Sys2Proof.Machine
end

section
/-!
SUPPORT. Loads and stores inside memory: an aligned access in bounds raises nothing, a load retires with the word
there, and a store retires after the four bytes of its word (R52, R165 to R167).
-/

namespace Sys2Proof.Machine

/-! ### Accesses that do not raise -/

/-- An aligned access inside memory raises nothing (R165). -/
theorem addressFault_eq_none {m : Nat} {ea : Word} (aligned : ea.toNat % 4 = 0) (inside : ea.toNat + 4 ≤ m) :
    addressFault m ea = none := by
  rw [addressFault_eq, if_neg (not_not_intro aligned), if_neg (Nat.not_lt.2 inside)]

section

variable {s : State} {r : Reg} {imm : Word}

theorem exec_lw_of_no_fault (rd : Reg) (h : addressFault s.cfg.memSize (s.reg r + imm) = none) :
    exec (.lw rd r imm) s = s.finishSequential rd (valueResult (s.readWord (s.reg r + imm)) s.archPc) := by
  simp only [exec, execLw, effectiveAddress_eq, h]

theorem exec_sw_of_no_fault (q : Reg) (h : addressFault s.cfg.memSize (s.reg r + imm) = none) :
    exec (.sw r q imm) s = .next ((s.writeWord (s.reg r + imm) (s.reg q)).retireSequential 0 0 (s.archPc + 4)) := by
  simp only [exec, execSw, effectiveAddress_eq, h, State.finishSequential_valueResult, nextSequential_eq]

end

/-! ### The bytes of a stored word -/

/-- A word write puts at `a + k` the byte of the word that the byte order puts there (R52). -/
theorem memGet_memWriteWord_add {m : List Host.Cell} (h : memWf m = true) (o : ByteOrder) (a : Nat) (v : Word) {k : Nat}
    (hk : k < 4) : memGet (memWriteWord o m a v) (a + k) = byteOf v (lane o k) := by
  rw [memGet_memWriteWord h]
  obtain rfl | rfl | rfl | rfl : k = 0 ∨ k = 1 ∨ k = 2 ∨ k = 3 := by omega
  all_goals simp

/-- An address that is none of the four from `a` lies below or above them. -/
theorem lt_or_add_four_le_of_ne {a x : Nat} (h : ∀ k, k < 4 → x ≠ a + k) : x < a ∨ a + 4 ≤ x := by
  by_contra hin
  exact h (x - a) (by omega) (by omega)

/-- The state a store leaves: the four bytes are the word's, and nothing else is written (R167). -/
theorem storeStep_retire {s : State} (h : memWf s.mem = true) (ea v next : Word) :
    StoreStep s ((s.writeWord ea v).retireSequential 0 0 next) ea v next where
  regs := (plainStep_retire (s.writeWord ea v) 0 next).regs
  stored k hk := by
    rw [(plainStep_retire (s.writeWord ea v) 0 next).bytes]
    exact memGet_memWriteWord_add h s.cfg.byteOrder ea.toNat v hk
  others a ha := by
    rw [(plainStep_retire (s.writeWord ea v) 0 next).bytes]
    exact memGet_memWriteWord_of_outside h s.cfg.byteOrder v (lt_or_add_four_le_of_ne ha)
  done := ⟨rfl, by simp, rfl, rfl, (Ends.stored ea v next).sameEngine⟩

/-! ### The obligations -/

/-- Settles O13: the load finishes with the word read there, which is the four bytes in the configured order. -/
theorem lwCompletes : Obligations.LwCompletes :=
  fun _ rd _ _ aligned inside => completes_of_valueResult (exec_lw_of_no_fault rd (addressFault_eq_none aligned inside))

/-- Settles O14: the effective address is the wrapping sum, and the store retires after its word is written there. -/
theorem swCompletes : Obligations.SwCompletes := by
  intro s rs1 rs2 imm hmem ea
  have hea : ea = s.reg rs1 + imm := effectiveAddress_eq ..
  refine ⟨hea, fun aligned inside => ?_⟩
  rw [hea] at aligned inside ⊢
  exact ⟨_, exec_sw_of_no_fault rs2 (addressFault_eq_none aligned inside), storeStep_retire hmem ..⟩

end Sys2Proof.Machine
end

section
/-!
SUPPORT. Branches, jumps and the system instructions: the conditions in the comparisons of words, and the state each kind of
end leaves (R168 to R181).
-/

namespace Sys2Proof.Machine

/-! ### The conditions -/

theorem condEq_iff {a b : Word} : condEq a b = true ↔ a = b := beq_iff_eq

theorem condNe_iff {a b : Word} : condNe a b = true ↔ ¬ a = b := bne_iff_ne

theorem condLt_iff {a b : Word} : condLt a b = true ↔ a.slt b = true := by rw [condLt_eq_slt]

theorem condGt_iff {a b : Word} : condGt a b = true ↔ b.slt a = true := condLt_iff

theorem condGe_iff {a b : Word} : condGe a b = true ↔ ¬ a.slt b = true := by
  rw [← condLt_iff, condGe, condLt, decide_eq_true_iff, decide_eq_true_iff, Int.not_lt]

theorem condLe_iff {a b : Word} : condLe a b = true ↔ ¬ b.slt a = true := condGe_iff

/-! ### How a branch or a jump ends -/

section

variable {i : Instr} {s : State} {taken : Bool} {imm : Word} {p : Prop} [Decidable p]

/-- A branch that is taken where `p` holds completes, at `imm` there and at the next pc elsewhere (R168, R169). -/
theorem completes_of_branchResult (hexec : exec i s = s.finishSequential 0 (branchResult taken imm s.archPc))
    (htaken : taken = true ↔ p) :
    ∃ t, exec i s = .next t ∧ PlainStep s t (if p then imm else s.archPc + 4) s.outcome := by
  rw [State.finishSequential_branchResult, if_congr htaken rfl rfl, nextSequential_eq] at hexec
  exact ⟨_, hexec, plainStep_retire ..⟩

/-- A branch that is taken where `p` fails completes, at the next pc where `p` holds (R168, R169). -/
theorem completes_of_branchResult_not (hexec : exec i s = s.finishSequential 0 (branchResult taken imm s.archPc))
    (htaken : taken = true ↔ ¬ p) :
    ∃ t, exec i s = .next t ∧ PlainStep s t (if p then s.archPc + 4 else imm) s.outcome := by
  rw [← ite_not]
  exact completes_of_branchResult hexec htaken

end

/-! ### The obligations -/

/-- Settles O17: each is the branch of its condition, and the two conditions are equality and its negation. -/
theorem equalityBranchesComplete : Obligations.EqualityBranchesComplete :=
  fun _ _ _ _ => ⟨completes_of_branchResult rfl condEq_iff, completes_of_branchResult_not rfl condNe_iff⟩

/-- Settles O18: each is the branch of its condition, and the four conditions are the two signed orders and their
negations. -/
theorem orderingBranchesComplete : Obligations.OrderingBranchesComplete :=
  fun _ _ _ _ =>
    ⟨completes_of_branchResult rfl condGt_iff, completes_of_branchResult_not rfl condGe_iff,
      completes_of_branchResult_not rfl condLe_iff, completes_of_branchResult rfl condLt_iff⟩

/-- Settles O19: a jump retires at its target whatever that is; `jal` alone has a destination, register 31. -/
theorem jumpsComplete : Obligations.JumpsComplete :=
  fun s _ imm =>
    ⟨⟨_, rfl, plainStep_retire ..⟩, ⟨_, rfl, registerStep_retire s 31 (s.archPc + 4) imm⟩, ⟨_, rfl, plainStep_retire ..⟩⟩

/-- Settles O20: `nop` retires with no destination, and `halt` ends the run behind its retirement. -/
theorem nopAndHaltComplete : Obligations.NopAndHaltComplete :=
  fun _ => ⟨⟨_, rfl, plainStep_retire ..⟩, ⟨_, rfl, plainStep_halt ..⟩⟩

theorem exec_syscall_of_exit {s : State} (h : s.reg 2 = 10) :
    exec .syscall s = .next (s.retireSequential 0 0 (s.archPc + 4)).halt :=
  if_pos (by simpa [exitRequested_eq] using h)

theorem exec_syscall_of_ne {s : State} (h : s.reg 2 ≠ 10) :
    exec .syscall s = .next (s.raiseSequential .unsupportedSyscall 0) :=
  if_neg (by simpa [exitRequested_eq] using h)

/-- Settles O21: the exit request retires and halts, any other value raises. -/
theorem syscallExitsOrFaults : Obligations.SyscallExitsOrFaults :=
  fun _ => ⟨fun h => ⟨_, exec_syscall_of_exit h, plainStep_halt ..⟩, fun h => ⟨_, exec_syscall_of_ne h, faultStep_raise ..⟩⟩

end Sys2Proof.Machine
end

section
/-!
SUPPORT. The loader contract: the conditions of R199 and R200 and the refusals they give, the reset state a program starts
in (R202), and the bytes its data section leaves in memory (R51, R84).
-/

namespace Sys2Proof.Machine

/-! ### The conditions of R199 and R200 -/

theorem forall_fuClass {P : FuClass → Prop} : (∀ k, P k) ↔ P .alu ∧ P .fpu ∧ P .lsu := by
  refine ⟨fun h => ⟨h _, h _, h _⟩, fun ⟨halu, hfpu, hlsu⟩ k => ?_⟩
  cases k
  · exact halu
  · exact hfpu
  · exact hlsu

theorem validCache_iff {g : CacheConfig} : ValidCache g ↔ g.valid = true := by
  simp only [CacheConfig.valid_iff, isPowerOfTwo_iff]
  exact ⟨fun ⟨hsize, hblock, hassoc, hword, hset, hmiss⟩ => ⟨hsize, hblock, hassoc, hword, hset, hmiss⟩,
    fun ⟨hsize, hblock, hassoc, hword, hset, hmiss⟩ => ⟨hsize, hblock, hassoc, hword, hset, hmiss⟩⟩

/-- The checks of a configuration are the conditions of R199, those on one class of units gathered over the classes. -/
theorem validConfig_iff {c : Config} : ValidConfig c ↔ c.valid = true := by
  rw [Config.valid_iff, ← validCache_iff, ← validCache_iff]
  constructor
  · intro h
    obtain ⟨rsAlu, rsFpu, rsLsu⟩ := forall_fuClass.1 h.rsCap
    obtain ⟨latAlu, latFpu, latLsu⟩ := forall_fuClass.1 h.fuLat
    exact ⟨h.fetchWidth, h.issueWidth, h.commitWidth, h.cdbWidth, h.fbCap, h.robCap, h.lsqCap, h.maxCycles,
      rsAlu, rsFpu, rsLsu, h.aluCount, h.lsuCount, latAlu, latFpu, latLsu, h.bpEntries, h.btbEntries, h.icache, h.dcache,
      h.memHoldsWord, h.memFits, h.textAligned⟩
  · rintro ⟨fetchWidth, issueWidth, commitWidth, cdbWidth, fbCap, robCap, lsqCap, maxCycles, rsAlu, rsFpu, rsLsu,
      aluCount, lsuCount, latAlu, latFpu, latLsu, bpEntries, btbEntries, icache, dcache, memHoldsWord, memFits,
      textAligned⟩
    exact ⟨fetchWidth, issueWidth, commitWidth, cdbWidth, fbCap, robCap, lsqCap, maxCycles,
      forall_fuClass.2 ⟨rsAlu, rsFpu, rsLsu⟩, aluCount, lsuCount, forall_fuClass.2 ⟨latAlu, latFpu, latLsu⟩, bpEntries,
      btbEntries, icache, dcache, memHoldsWord, memFits, textAligned⟩

theorem decode?_isSome_iff {w : RecordWord} : (decode? w).isSome = true ↔ ∃ i, decode w = .ok i := by
  simp only [Option.isSome_iff_exists, decode?_eq_some_iff]

theorem textLegal_iff {base : Word} {text : List RecordWord} :
    textLegal base text = true ↔
      (∀ w, w ∈ text → ∃ i, decode w = .ok i) ∧ base.toNat + 4 * text.length ≤ 2 ^ 32 := by
  simp only [textLegal, Bool.and_eq_true, List.all_eq_true, decode?_isSome_iff, decide_eq_true_iff]

/-- The data section of a program, placed: canonical, it ends at `dataEnd`, and every byte outside it is 0. -/
theorem Program.placement_spec (p : Program) (o : ByteOrder) :
    memWf (p.placement o).image = true ∧ (p.placement o).next = dataEnd p.dataBase p.data ∧
      ∀ x, x < p.dataBase ∨ dataEnd p.dataBase p.data ≤ x → memGet (p.placement o).image x = 0 := by
  obtain ⟨hwf, hnext, -, hout⟩ := placeItems_spec o p.data ⟨p.dataBase, []⟩ memWf_nil
  refine ⟨hwf, hnext, fun x hx => hout x ?_⟩
  rw [hnext]
  exact hx

theorem Program.dataFits_iff {p : Program} {c : Config} :
    p.dataFits c = true ↔
      dataEnd p.dataBase p.data ≤ c.memSize ∨ dataEnd p.dataBase p.data = p.dataBase := by
  obtain ⟨-, hnext, -⟩ := p.placement_spec c.byteOrder
  rw [Program.dataFits, hnext, Bool.or_eq_true, beq_iff_eq, decide_eq_true_iff, or_comm]

theorem Program.entryOk_iff {p : Program} {c : Config} :
    p.entryOk c = true ↔
      (p.entry c).toNat % 4 = 0 ∧ (p.text ≠ [] →
        c.textBase.toNat ≤ (p.entry c).toNat ∧ (p.entry c).toNat < c.textBase.toNat + 4 * p.text.length) := by
  simp only [Program.entryOk, Bool.and_eq_true, Bool.or_eq_true, decide_eq_true_iff, List.isEmpty_iff, ne_eq,
    or_iff_not_imp_left]

/-- The loader's checks of a program are the conditions of R200. -/
theorem loadable_iff {c : Config} {p : Program} : Loadable c p ↔ p.valid c = true := by
  rw [Program.valid, Bool.and_eq_true, Bool.and_eq_true, Bool.and_eq_true, textLegal_iff, Program.dataFits_iff,
    Program.entryOk_iff, beq_iff_eq]
  exact ⟨fun ⟨hlegal, htext, hdata, haligned, hinside, hzero⟩ =>
      ⟨⟨⟨⟨hlegal, htext⟩, hdata⟩, haligned, hinside⟩, hzero⟩,
    fun ⟨⟨⟨⟨hlegal, htext⟩, hdata⟩, haligned, hinside⟩, hzero⟩ =>
      ⟨hlegal, htext, hdata, haligned, hinside, hzero⟩⟩

/-! ### What the loader and the step answer -/

theorem State.load_of_invalid_config {c : Config} (p : Program) (h : c.valid = false) :
    State.load c p = .refused .configInvalid :=
  if_pos h

theorem State.load_of_not_loadable {c : Config} {p : Program} (hc : c.valid = true) (hp : ¬ Loadable c p) :
    State.load c p = .refused .programInvalid := by
  rw [State.load, if_neg (by simp [hc]), if_pos (by simpa [loadable_iff] using hp)]

theorem State.load_of_loadable {c : Config} {p : Program} (hc : c.valid = true) (hp : Loadable c p) :
    State.load c p =
      .next (State.resetWith c p.text (p.placement c.byteOrder).image (p.entry c) p.initRegs) := by
  rw [State.load, if_neg (by simp [hc]), if_neg (by simp [loadable_iff.1 hp])]

theorem startRefusal_of_invalid_config {s : State} (h : s.cfg.valid = false) :
    s.startRefusal = some .configInvalid :=
  if_pos h

theorem startRefusal_of_illegal_text {s : State} (hc : s.cfg.valid = true)
    (h : textLegal s.cfg.textBase s.imem = false) : s.startRefusal = some .programInvalid := by
  rw [State.startRefusal, if_neg (by simp [hc]), if_pos h]

/-- Settles O8: the two refusals of the checks before a run, and the end of a run. -/
theorem stepStopsByName : Obligations.StepStopsByName := by
  refine ⟨fun s h => step_of_refusal (startRefusal_of_invalid_config h), ?_, fun s => step_of_ended⟩
  rintro s hc ⟨w, hw, e, he⟩
  exact step_of_refusal (startRefusal_of_illegal_text hc (textLegal_of_mem_illegal hw he))

/-! ### The reset values -/

section

variable {c : Config} {imem : List RecordWord} {mem : List Host.Cell} {entry : Word} {regs : Vector Word 32}

theorem State.robAt_resetWith (t : Nat) : (State.resetWith c imem mem entry regs).robAt t = RobEntry.empty :=
  forall_entryAt (P := (· = RobEntry.empty))
    (fun _ hx => (List.mem_cons.1 hx).elim id List.eq_of_mem_replicate) t

theorem State.mem_rs_resetWith {k : FuClass} {e : RsEntry}
    (h : e ∈ (State.resetWith c imem mem entry regs).rs.get k) : e = RsEntry.empty k := by
  cases k <;> exact List.eq_of_mem_replicate h

theorem State.mem_fu_resetWith {k : FuClass} {u : FuUnit}
    (h : u ∈ (State.resetWith c imem mem entry regs).fu.get k) : u = FuUnit.idle := by
  cases k <;> exact List.eq_of_mem_replicate h

theorem cacheShape_reset (g : CacheConfig) : CacheShape g (Cache.reset g) where
  sets := List.length_replicate
  ways _ h := by rw [List.eq_of_mem_replicate h, List.length_replicate]

theorem mem_line_reset {g : CacheConfig} {ways : List CacheLine} {l : CacheLine} (hways : ways ∈ (Cache.reset g).sets)
    (hl : l ∈ ways) : l = ⟨false, 0, false, 0⟩ := by
  rw [List.eq_of_mem_replicate hways] at hl
  exact List.eq_of_mem_replicate hl

/-- The reset state has the values of R202, whatever the configuration and the program. -/
theorem asReset_resetWith : AsReset (State.resetWith c imem mem entry regs) where
  rename r := by rw [State.regEntry_resetWith]; exact ⟨rfl, rfl⟩
  robPointers := ⟨rfl, rfl, rfl⟩
  rob e he := by rw [List.eq_of_mem_replicate he]; rfl
  rs k e he := by rw [State.mem_rs_resetWith he]; rfl
  fu k u hu := by rw [State.mem_fu_resetWith hu]; rfl
  queues := ⟨rfl, rfl, rfl, rfl⟩
  mport := rfl
  seqNext := rfl
  cycle := rfl
  outcome := rfl
  fetch := ⟨rfl, rfl, rfl⟩
  pht _ hv := List.eq_of_mem_replicate hv
  history := ⟨rfl, rfl⟩
  btb e he := by rw [List.eq_of_mem_replicate he]; exact ⟨rfl, rfl⟩
  caches := by
    have cold : ∀ g : CacheConfig, (Cache.reset g).stamp = 0 ∧ ∀ ways, ways ∈ (Cache.reset g).sets →
        ∀ l, l ∈ ways → l.valid = false ∧ l.dirty = false ∧ l.lru = 0 := by
      refine fun g => ⟨rfl, fun ways hways l hl => ?_⟩
      rw [mem_line_reset hways hl]
      exact ⟨rfl, rfl, rfl⟩
    intro x hx
    rcases List.mem_pair.1 hx with rfl | rfl
    · exact cold c.icache
    · exact cold c.dcache
  metrics := rfl

/-! ### The invariants at reset -/

theorem withinCapacity_resetWith : WithinCapacity (State.resetWith c imem mem entry regs) where
  fb := Nat.zero_le _
  lsq := Nat.zero_le _
  dl := Nat.zero_le _
  rob := List.length_replicate
  rs k := by cases k <;> exact List.length_replicate
  fu k := by cases k <;> exact List.length_replicate
  fuBusy k := by cases k <;> exact List.length_replicate
  pht := List.length_replicate
  btb := List.length_replicate
  icache := cacheShape_reset c.icache
  dcache := cacheShape_reset c.dcache

theorem latchReserved_resetWith : LatchReserved (State.resetWith c imem mem entry regs) where
  width := Nat.zero_le _
  size := withinCapacity_resetWith.rs
  room k := by
    have hfree : countValid ((State.resetWith c imem mem entry regs).rs.get k) = 0 :=
      List.countP_eq_zero.2 fun e he => by rw [State.mem_rs_resetWith he]; exact Bool.false_ne_true
    rw [hfree]
    exact Nat.zero_le _

theorem historyFits_resetWith : HistoryFits (State.resetWith c imem mem entry regs) where
  ghr := Nat.two_pow_pos _
  fb := nofun
  rob t := by rw [State.robAt_resetWith]; exact Nat.two_pow_pos _

theorem renameSound_resetWith : RenameSound (State.resetWith c imem mem entry regs) := by
  intro r hr
  rw [State.regEntry_resetWith] at hr
  cases hr

theorem robOrdered_resetWith : RobOrdered (State.resetWith c imem mem entry regs) where
  rising _ _ _ hk := absurd hk (Nat.not_lt_zero _)
  below _ hk := absurd hk (Nat.not_lt_zero _)

theorem unitsWithinLatency_resetWith : UnitsWithinLatency (State.resetWith c imem mem entry regs) := by
  intro k u hu hbusy
  rw [State.mem_fu_resetWith hu] at hbusy
  cases hbusy

/-- A register holds what the loader gives it, which for register 0 is 0 (R200). -/
theorem State.reg_resetWith (hzero : regs[0] = 0) (r : Reg) :
    (State.resetWith c imem mem entry regs).reg r = regs[r.toNat]'r.isLt := by
  by_cases hr : r = 0
  · subst hr
    exact hzero.symm
  · rw [State.reg, if_neg hr, State.regEntry_resetWith]

end

/-- Settles O33: the loaded state is the reset state of a valid configuration, where each invariant holds. -/
theorem loadedStateMeetsInvariants : Obligations.LoadedStateMeetsInvariants := by
  intro c p s h
  have hwf := State.load_memWf h
  obtain ⟨hstart, hcap⟩ := State.load_startRefusal h
  obtain ⟨rfl, hzero⟩ := State.load_next h
  have hheld : ZeroHeld (State.resetWith c p.text (p.placement c.byteOrder).image (p.entry c) p.initRegs) := by
    rw [ZeroHeld, State.regEntry_resetWith]
    exact ⟨hzero, rfl⟩
  exact ⟨hwf, hheld, robRing_resetWith hcap .., renameSound_resetWith, robOrdered_resetWith, withinCapacity_resetWith,
    latchReserved_resetWith, historyFits_resetWith, unitsWithinLatency_resetWith, ⟨le_refl _, le_refl _⟩,
    cacheShape_reset _, cacheShape_reset _, hstart, State.reg_resetWith hzero⟩

/-! ### The reset state -/

theorem asReset_reset : AsReset State.reset := asReset_resetWith

theorem State.regEntry_reset (r : Reg) : State.reset.regEntry r = ⟨0, true, 0⟩ := by
  rw [State.reset, State.regEntry_resetWith, Vector.getElem_replicate]
  rfl

theorem State.reg_reset (r : Reg) : State.reset.reg r = 0 := by
  rw [State.reset, State.reg_resetWith rfl, Vector.getElem_replicate]
  rfl

/-- A program with nothing in it meets every condition of R200. -/
theorem loadable_empty : Loadable Config.reference { text := [], data := [] } where
  legal := nofun
  textFits := by decide
  dataFits := .inr rfl
  entryAligned := by decide
  entryInside h := absurd rfl h
  zeroRegister := rfl

/-- Settles O34: the values of every reset state, and those of the reference configuration with nothing loaded. -/
theorem resetValues : Obligations.ResetValues := by
  obtain ⟨-, ⟨hhead, htail, hcount⟩, hrob, hrs, hfu, ⟨hcdbq, hlsq, hfb, hdl⟩, hmport, hseq, hcycle, hout,
    ⟨hstall, hcause, hblocked⟩, hpht, ⟨hghr, hstamp⟩, hbtb, hcaches, hmetrics⟩ := asReset_reset
  obtain ⟨hicache, hisets⟩ := hcaches State.reset.icache (by simp)
  obtain ⟨hdcache, hdsets⟩ := hcaches State.reset.dcache (by simp)
  have hloaded : State.load Config.reference { text := [], data := [] } = .next State.reset :=
    State.load_of_loadable (by decide) loadable_empty
  refine ⟨fun c p s h => ?_, asReset_reset, State.reg_reset, State.regEntry_reset, rfl, rfl, rfl, rfl, hhead, htail,
    hcount, hrob, hrs, hfu, hcdbq, hlsq, hfb, hdl, hmport, hseq, hcycle, hout, hstall, hcause, hblocked, hpht, hghr, hstamp,
    hbtb, hicache, hdcache, fun ways hways => ?_, hmetrics, hloaded⟩
  · rw [(State.load_next h).1]
    exact asReset_resetWith
  · exact (List.mem_append.1 hways).elim (hisets ways) (hdsets ways)

/-! ### The bytes of the data section -/

theorem dataEnd_append (start : Nat) (pre post : List DataItem) :
    dataEnd start (pre ++ post) = dataEnd (dataEnd start pre) post := by
  induction pre generalizing start with
  | nil => rfl
  | cons d pre ih =>
    cases d with
    | word ws => cases ws <;> exact ih _
    | space n => exact ih _
    | asciiz bs => exact ih _

/-- Word `k` of a list of words reads back at its place (R84). -/
theorem memReadWord_placeWords (o : ByteOrder) {ws : List Word} {p : Placement} (h : memWf p.image = true) {k : Nat}
    {v : Word} (hv : ws[k]? = some v) : memReadWord o (placeWords o ws p).image (p.next + 4 * k) = v := by
  induction ws generalizing p k with
  | nil => cases hv
  | cons w ws ih =>
    have hwf := memWf_memWriteWord h o p.next w
    rw [placeWords]
    cases k with
    | zero =>
      obtain rfl : w = v := Option.some.inj hv
      obtain ⟨-, -, hout⟩ := placeWords_spec o ws ⟨p.next + 4, memWriteWord o p.image p.next w⟩ hwf
      exact (memReadWord_congr fun x _ hx => hout x (.inl hx)).trans (memReadWord_memWriteWord h o p.next w)
    | succ k =>
      have hplace : p.next + 4 * (k + 1) = p.next + 4 + 4 * k := by omega
      rw [hplace]
      exact ih hwf hv

/-- A datum placed where memory is still 0 from its start on, and then left alone: memory holds it (R51, R84). -/
theorem datumAt_placeItem {s : State} {d : DataItem} {p : Placement} (hwf : memWf p.image = true)
    (hblank : ∀ x, p.next ≤ x → memGet p.image x = 0)
    (hkept : ∀ x, x < (placeItem s.cfg.byteOrder d p).next →
      s.readByte x = memGet (placeItem s.cfg.byteOrder d p).image x) : DatumAt s p.next d := by
  cases d with
  | word ws =>
    cases ws with
    | nil => trivial
    | cons w ws =>
      obtain ⟨-, hnext, hout⟩ :=
        placeWords_spec s.cfg.byteOrder (w :: ws) { p with next := alignUp4 p.next } hwf
      simp only [placeItem, hnext] at hkept hout
      refine ⟨fun k v hv => ?_, fun a hlo hhi => ?_⟩
      · obtain ⟨hk, -⟩ := List.getElem?_eq_some_iff.1 hv
        calc memReadWord s.cfg.byteOrder s.mem (alignUp4 p.next + 4 * k)
            = memReadWord s.cfg.byteOrder
                (placeWords s.cfg.byteOrder (w :: ws) { p with next := alignUp4 p.next }).image
                (alignUp4 p.next + 4 * k) := memReadWord_congr fun x _ hx => hkept x (by omega)
          _ = v := memReadWord_placeWords s.cfg.byteOrder (p := { p with next := alignUp4 p.next }) hwf hv
      · rw [hkept a (by omega), hout a (.inl hhi), hblank a hlo]
  | space n =>
    obtain ⟨-, hnext, hget⟩ := placeBytes_spec (List.replicate n 0) p hwf
    simp only [placeItem, hnext, hget, List.length_replicate] at hkept
    intro k hk
    rw [hkept (p.next + k) (by omega), if_neg (by omega), Nat.add_sub_cancel_left, List.getD_replicate _ hk]
  | asciiz bs =>
    obtain ⟨-, hnext, hget⟩ := placeBytes_spec (bs ++ [0]) p hwf
    simp only [placeItem, hnext, hget, List.length_append, List.length_singleton] at hkept
    have hbyte : ∀ k, k ≤ bs.length → s.readByte (p.next + k) = (bs ++ [0]).getD k 0 := by
      intro k hk
      rw [hkept (p.next + k) (by omega), if_neg (by omega), Nat.add_sub_cancel_left]
    refine ⟨fun k b hb => ?_, ?_⟩
    · obtain ⟨hk, -⟩ := List.getElem?_eq_some_iff.1 hb
      rw [hbyte k (Nat.le_of_lt hk), List.getD_eq_getElem?_getD, List.getElem?_append_left hk, hb]
      rfl
    · rw [hbyte _ (le_refl _), List.getD_eq_getElem?_getD, List.getElem?_concat_length]
      rfl

/-- A state whose memory is the placed data section holds every datum at its place: the data before it leave memory 0 from
its start on, and the data behind it leave it alone. -/
theorem datumAt_of_placement {s : State} {p : Program} (hmem : s.mem = (p.placement s.cfg.byteOrder).image)
    {pre post : List DataItem} {d : DataItem} (hdata : p.data = pre ++ d :: post) :
    DatumAt s (dataEnd p.dataBase pre) d := by
  obtain ⟨hwf, hnext, -, hout⟩ := placeItems_spec s.cfg.byteOrder pre ⟨p.dataBase, []⟩ memWf_nil
  obtain ⟨hwf', -, -, -⟩ := placeItem_spec s.cfg.byteOrder d _ hwf []
  obtain ⟨-, -, -, hout'⟩ := placeItems_spec s.cfg.byteOrder post _ hwf'
  rw [← show (placeItems s.cfg.byteOrder pre ⟨p.dataBase, []⟩).next = dataEnd p.dataBase pre from hnext]
  refine datumAt_placeItem hwf (fun x hx => hout x (.inr hx)) fun x hx => ?_
  rw [State.readByte, hmem, Program.placement, hdata, placeItems_append]
  exact hout' x (.inl hx)

/-- Settles O35: the checks are the conditions of R199 and R200, and the loaded state is the reset state over the placed
data section. -/
theorem loaderRefusesOrResets : Obligations.LoaderRefusesOrResets := by
  refine fun c p => ⟨validConfig_iff.symm, State.load_of_invalid_config p, State.load_of_not_loadable,
    fun hc hp => ⟨_, State.load_of_loadable hc hp, rfl, rfl, rfl, rfl, rfl, State.reg_resetWith hp.zeroRegister,
      fun pre d post hdata => datumAt_of_placement rfl hdata, ?_⟩⟩
  obtain ⟨-, -, hout⟩ := p.placement_spec c.byteOrder
  exact hout

end Sys2Proof.Machine
end
